-- ==== Sys2Proof/Word.lean ====
section
/-! DEFINITION. The word types of the machine: what the spec treats as bits is a bit vector of the width the spec
gives it (00_scope R9, R13; 30_encoding R91), an index into a fixed set of like things is a `Fin`. -/

namespace Sys2Proof

/-- A general register, a timer, a memory byte or the literal NN (10_state R21, R33; 30_encoding R91). -/
abbrev Byte := BitVec 8

/-- An instruction word, I, PC or a stack slot (10_state R24, R25, R28; 30_encoding R90). -/
abbrev Word := BitVec 16

/-- The 12-bit address field NNN (30_encoding R91). -/
abbrev Addr12 := BitVec 12

/-- A 4-bit field of an instruction word: the family, X, Y or N (30_encoding R91). -/
abbrev Nibble := BitVec 4

/-- A register index, the number X of V[X] (10_state R21). -/
abbrev RegIdx := Fin 16

/-- One of the 16 keys 0x0 to 0xF (10_state R36). -/
abbrev Key := Fin 16

/-- A keypad snapshot: bit k is 1 when key k is pressed (10_state R36; 40_cycle R131). -/
abbrev KeySet := BitVec 16

/-- A framebuffer column, 0 at the left (10_state R35). -/
abbrev Col := Fin 64

/-- A framebuffer row, 0 at the top (10_state R35). -/
abbrev Row := Fin 32

/-- The framebuffer: 32 rows of 64 one-bit cells, `true` meaning lit (10_state R35). -/
abbrev Framebuffer := Vector (Vector Bool 64) 32

/-- The register VF, V[15], which is also the flag register (10_state R22). -/
abbrev VF : RegIdx := 15

end Sys2Proof
end

