-- ==== Sys2Proof/WellFormed.lean ====
section
/-! DEFINITION. Which words are instructions: the opcode map as mask and match (30_encoding R94), written apart from the
decoder so that the two can be held against each other. The operands of `Instr` have exactly the widths of their fields
(30_encoding R91), so every term of `Instr` is well formed as syntax (log 16); what can be ill formed is a word, and each
family's check refuses some words (R95 to R99, R102). -/

namespace Sys2Proof

/-- One row of the opcode map: an instruction is selected when `op & mask = pattern` (30_encoding R94). -/
structure OpcodeRow where
  mnemonic : String
  mask : Word
  pattern : Word
  deriving DecidableEq, Repr

/-- The row selects the word (30_encoding R94). -/
def OpcodeRow.selects (r : OpcodeRow) (op : Word) : Bool := op &&& r.mask == r.pattern

/-- The two words of family 0x0, fixed in all 16 bits (30_encoding R94, R95). -/
def OpcodeRow.family0 : List OpcodeRow := [⟨"CLS", 0xFFFF, 0x00E0⟩, ⟨"RET", 0xFFFF, 0x00EE⟩]

/-- The families selected by the high nibble alone (30_encoding R94). -/
def OpcodeRow.byFamily : List OpcodeRow :=
  [⟨"JP", 0xF000, 0x1000⟩, ⟨"CALL", 0xF000, 0x2000⟩, ⟨"SE_imm", 0xF000, 0x3000⟩, ⟨"SNE_imm", 0xF000, 0x4000⟩,
   ⟨"LD_imm", 0xF000, 0x6000⟩, ⟨"ADD_imm", 0xF000, 0x7000⟩, ⟨"LD_I", 0xF000, 0xA000⟩, ⟨"JP_V0", 0xF000, 0xB000⟩,
   ⟨"RND", 0xF000, 0xC000⟩, ⟨"DRW", 0xF000, 0xD000⟩]

/-- The families selected by the high nibble and N (30_encoding R94, R96, R99). -/
def OpcodeRow.byN : List OpcodeRow :=
  [⟨"SE_reg", 0xF00F, 0x5000⟩, ⟨"SNE_reg", 0xF00F, 0x9000⟩, ⟨"LD_reg", 0xF00F, 0x8000⟩, ⟨"OR", 0xF00F, 0x8001⟩,
   ⟨"AND", 0xF00F, 0x8002⟩, ⟨"XOR", 0xF00F, 0x8003⟩, ⟨"ADD_reg", 0xF00F, 0x8004⟩, ⟨"SUB", 0xF00F, 0x8005⟩,
   ⟨"SHR", 0xF00F, 0x8006⟩, ⟨"SUBN", 0xF00F, 0x8007⟩, ⟨"SHL", 0xF00F, 0x800E⟩]

/-- The families selected by the high nibble and NN (30_encoding R94, R97, R98). -/
def OpcodeRow.byNN : List OpcodeRow :=
  [⟨"SKP", 0xF0FF, 0xE09E⟩, ⟨"SKNP", 0xF0FF, 0xE0A1⟩, ⟨"LD_Vx_DT", 0xF0FF, 0xF007⟩, ⟨"LD_Vx_K", 0xF0FF, 0xF00A⟩,
   ⟨"LD_DT_Vx", 0xF0FF, 0xF015⟩, ⟨"LD_ST_Vx", 0xF0FF, 0xF018⟩, ⟨"ADD_I", 0xF0FF, 0xF01E⟩, ⟨"LD_F", 0xF0FF, 0xF029⟩,
   ⟨"LD_B", 0xF0FF, 0xF033⟩, ⟨"LD_mem_store", 0xF0FF, 0xF055⟩, ⟨"LD_mem_load", 0xF0FF, 0xF065⟩]

/-- The whole opcode map, 34 rows (30_encoding R93, R94). -/
def OpcodeRow.all : List OpcodeRow := OpcodeRow.family0 ++ OpcodeRow.byFamily ++ OpcodeRow.byN ++ OpcodeRow.byNN

/-- The word is an instruction: some row of the opcode map selects it (30_encoding R94, R101). -/
def wellFormedWord (op : Word) : Bool := OpcodeRow.all.any fun r => r.selects op

/-- The mnemonic of an instruction, as its row spells it (00_scope R18: a label with no semantics). -/
def Instr.mnemonic : Instr → String
  | .cls => "CLS"
  | .ret => "RET"
  | .jp _ => "JP"
  | .call _ => "CALL"
  | .seImm _ _ => "SE_imm"
  | .sneImm _ _ => "SNE_imm"
  | .seReg _ _ => "SE_reg"
  | .ldImm _ _ => "LD_imm"
  | .addImm _ _ => "ADD_imm"
  | .ldReg _ _ => "LD_reg"
  | .orReg _ _ => "OR"
  | .andReg _ _ => "AND"
  | .xorReg _ _ => "XOR"
  | .addReg _ _ => "ADD_reg"
  | .subReg _ _ => "SUB"
  | .shr _ _ => "SHR"
  | .subnReg _ _ => "SUBN"
  | .shl _ _ => "SHL"
  | .sneReg _ _ => "SNE_reg"
  | .ldI _ => "LD_I"
  | .jpV0 _ => "JP_V0"
  | .rnd _ _ => "RND"
  | .drw _ _ _ => "DRW"
  | .skp _ => "SKP"
  | .sknp _ => "SKNP"
  | .ldVxDT _ => "LD_Vx_DT"
  | .ldVxK _ => "LD_Vx_K"
  | .ldDTVx _ => "LD_DT_Vx"
  | .ldSTVx _ => "LD_ST_Vx"
  | .addI _ => "ADD_I"
  | .ldF _ => "LD_F"
  | .ldB _ => "LD_B"
  | .ldMemStore _ => "LD_mem_store"
  | .ldMemLoad _ => "LD_mem_load"

end Sys2Proof
end

