-- ==== Sys2Proof/Decode.lean ====
section
/-! DEFINITION. The decoder (30_encoding R90 to R105; 40_cycle R123), total on every word and on every list of bytes and
rejecting by name, and after it the encoder, written from the same patterns (30_encoding R93). -/

namespace Sys2Proof

/-- The family, op[15:12] (30_encoding R91). -/
def familyOf (op : Word) : Nibble := op.extractLsb' 12 4

/-- The field X = (op >> 8) & 0xF, a register index (30_encoding R91). -/
def fieldX (op : Word) : RegIdx := Fin.ofNat 16 (op.extractLsb' 8 4).toNat

/-- The field Y = (op >> 4) & 0xF, a register index (30_encoding R91). -/
def fieldY (op : Word) : RegIdx := Fin.ofNat 16 (op.extractLsb' 4 4).toNat

/-- The field N = op & 0x000F (30_encoding R91). -/
def fieldN (op : Word) : Nibble := op.extractLsb' 0 4

/-- The field NN = op & 0x00FF (30_encoding R91). -/
def fieldNN (op : Word) : Byte := op.extractLsb' 0 8

/-- The field NNN = op & 0x0FFF (30_encoding R91). -/
def fieldNNN (op : Word) : Addr12 := op.extractLsb' 0 12

/-- The outcome of decoding a word: exactly one instruction, or the word reported as unimplemented (30_encoding R105). -/
inductive Decoded where
  | instr (i : Instr)
  /-- No row of the opcode map matches the word (30_encoding R101). -/
  | unimplemented (op : Word)
  deriving DecidableEq, Repr

/-- Family 0x0 is sub-dispatched on the whole word (30_encoding R95). -/
def decodeFamily0 (op : Word) : Decoded :=
  if op = 0x00E0 then .instr .cls
  else if op = 0x00EE then .instr .ret
  else .unimplemented op

/-- Family 0x8 is sub-dispatched on N (30_encoding R96). -/
def decodeFamily8 (op : Word) : Decoded :=
  let x := fieldX op
  let y := fieldY op
  let n := fieldN op
  if n = 0x0 then .instr (.ldReg x y)
  else if n = 0x1 then .instr (.orReg x y)
  else if n = 0x2 then .instr (.andReg x y)
  else if n = 0x3 then .instr (.xorReg x y)
  else if n = 0x4 then .instr (.addReg x y)
  else if n = 0x5 then .instr (.subReg x y)
  else if n = 0x6 then .instr (.shr x y)
  else if n = 0x7 then .instr (.subnReg x y)
  else if n = 0xE then .instr (.shl x y)
  else .unimplemented op

/-- Family 0xE is sub-dispatched on NN (30_encoding R97). -/
def decodeFamilyE (op : Word) : Decoded :=
  if fieldNN op = 0x9E then .instr (.skp (fieldX op))
  else if fieldNN op = 0xA1 then .instr (.sknp (fieldX op))
  else .unimplemented op

/-- Family 0xF is sub-dispatched on NN (30_encoding R98). -/
def decodeFamilyF (op : Word) : Decoded :=
  let x := fieldX op
  let nn := fieldNN op
  if nn = 0x07 then .instr (.ldVxDT x)
  else if nn = 0x0A then .instr (.ldVxK x)
  else if nn = 0x15 then .instr (.ldDTVx x)
  else if nn = 0x18 then .instr (.ldSTVx x)
  else if nn = 0x1E then .instr (.addI x)
  else if nn = 0x29 then .instr (.ldF x)
  else if nn = 0x33 then .instr (.ldB x)
  else if nn = 0x55 then .instr (.ldMemStore x)
  else if nn = 0x65 then .instr (.ldMemLoad x)
  else .unimplemented op

/-- Families 0x5 and 0x9 require N = 0 (30_encoding R99; 90_conflicts C7). -/
def decodeNZero (op : Word) (i : Instr) : Decoded :=
  if fieldN op = 0x0 then .instr i else .unimplemented op

/-- The decoder: dispatch on the high nibble, with sub-dispatch in families 0x0, 0x5, 0x8, 0x9, 0xE and 0xF
(30_encoding R90, R93; 40_cycle R123, R124). -/
def decode (op : Word) : Decoded :=
  match (familyOf op).toNat with
  | 0x0 => decodeFamily0 op
  | 0x1 => .instr (.jp (fieldNNN op))
  | 0x2 => .instr (.call (fieldNNN op))
  | 0x3 => .instr (.seImm (fieldX op) (fieldNN op))
  | 0x4 => .instr (.sneImm (fieldX op) (fieldNN op))
  | 0x5 => decodeNZero op (.seReg (fieldX op) (fieldY op))
  | 0x6 => .instr (.ldImm (fieldX op) (fieldNN op))
  | 0x7 => .instr (.addImm (fieldX op) (fieldNN op))
  | 0x8 => decodeFamily8 op
  | 0x9 => decodeNZero op (.sneReg (fieldX op) (fieldY op))
  | 0xA => .instr (.ldI (fieldNNN op))
  | 0xB => .instr (.jpV0 (fieldNNN op))
  | 0xC => .instr (.rnd (fieldX op) (fieldNN op))
  | 0xD => .instr (.drw (fieldX op) (fieldY op) (fieldN op))
  | 0xE => decodeFamilyE op
  | _ => decodeFamilyF op

/-- Two bytes as one word, the first the high byte: `op = hi * 256 + lo` (20_memory R66). -/
def bigEndian (hi lo : Byte) : Word := hi ++ lo

/-- The byte of a word that lies at the lower address (20_memory R66). -/
def highByte (op : Word) : Byte := op.extractLsb' 8 8

/-- The byte of a word that lies at the higher address (20_memory R66). -/
def lowByte (op : Word) : Byte := op.extractLsb' 0 8

/-- Why bytes are not an instruction. -/
inductive DecodeReject where
  /-- Fewer than the two bytes every instruction has (30_encoding R90). -/
  | truncated
  /-- The word matches no row of the opcode map (30_encoding R101). -/
  | unimplemented (op : Word)
  deriving DecidableEq, Repr

/-- The decoder on bytes in the order memory holds them: the instruction they begin with and the bytes after it. -/
def decodeBytes : List Byte → Except DecodeReject (Instr × List Byte)
  | hi :: lo :: rest =>
    match decode (bigEndian hi lo) with
    | .instr i => .ok (i, rest)
    | .unimplemented op => .error (.unimplemented op)
  | _ => .error .truncated

/-- A register index as the four bits of its field (30_encoding R91). -/
def regBits (x : RegIdx) : Nibble := BitVec.ofNat 4 x.val

/-- A word of the pattern dXYd (30_encoding R91). -/
def wordXYN (family : Nibble) (x y : RegIdx) (n : Nibble) : Word :=
  family ++ regBits x ++ regBits y ++ n

/-- A word of the pattern dXNN (30_encoding R91). -/
def wordXNN (family : Nibble) (x : RegIdx) (nn : Byte) : Word := family ++ regBits x ++ nn

/-- A word of the pattern dNNN (30_encoding R91). -/
def wordNNN (family : Nibble) (nnn : Addr12) : Word := family ++ nnn

/-- The encoder: each instruction's pattern with its fields filled in (30_encoding R93, R110). -/
def encode : Instr → Word
  | .cls => 0x00E0
  | .ret => 0x00EE
  | .jp nnn => wordNNN 0x1 nnn
  | .call nnn => wordNNN 0x2 nnn
  | .seImm x nn => wordXNN 0x3 x nn
  | .sneImm x nn => wordXNN 0x4 x nn
  | .seReg x y => wordXYN 0x5 x y 0x0
  | .ldImm x nn => wordXNN 0x6 x nn
  | .addImm x nn => wordXNN 0x7 x nn
  | .ldReg x y => wordXYN 0x8 x y 0x0
  | .orReg x y => wordXYN 0x8 x y 0x1
  | .andReg x y => wordXYN 0x8 x y 0x2
  | .xorReg x y => wordXYN 0x8 x y 0x3
  | .addReg x y => wordXYN 0x8 x y 0x4
  | .subReg x y => wordXYN 0x8 x y 0x5
  | .shr x y => wordXYN 0x8 x y 0x6
  | .subnReg x y => wordXYN 0x8 x y 0x7
  | .shl x y => wordXYN 0x8 x y 0xE
  | .sneReg x y => wordXYN 0x9 x y 0x0
  | .ldI nnn => wordNNN 0xA nnn
  | .jpV0 nnn => wordNNN 0xB nnn
  | .rnd x nn => wordXNN 0xC x nn
  | .drw x y n => wordXYN 0xD x y n
  | .skp x => wordXNN 0xE x 0x9E
  | .sknp x => wordXNN 0xE x 0xA1
  | .ldVxDT x => wordXNN 0xF x 0x07
  | .ldVxK x => wordXNN 0xF x 0x0A
  | .ldDTVx x => wordXNN 0xF x 0x15
  | .ldSTVx x => wordXNN 0xF x 0x18
  | .addI x => wordXNN 0xF x 0x1E
  | .ldF x => wordXNN 0xF x 0x29
  | .ldB x => wordXNN 0xF x 0x33
  | .ldMemStore x => wordXNN 0xF x 0x55
  | .ldMemLoad x => wordXNN 0xF x 0x65

/-- The bytes of an instruction in the order memory holds them (20_memory R66). -/
def encodeBytes (i : Instr) : List Byte := [highByte (encode i), lowByte (encode i)]

/-- The word the opcode table numbers: the low `nbits` bits of `w`, every bit above them 0. -/
def tableWord (nbits w : Nat) : Word := BitVec.ofNat 16 (w % 2 ^ nbits)

/-- The instruction the decoder reads from a word of the opcode table, laid out in memory order. -/
def decodeTableWord (nbits w : Nat) : Option Instr :=
  match decodeBytes [highByte (tableWord nbits w), lowByte (tableWord nbits w)] with
  | .ok (i, _) => some i
  | .error _ => none

end Sys2Proof
end

