-- ==== Sys2Proof/Config.lean ====
section
/-! DEFINITION. The parameters of the hardware (00_scope R7, R8) and its free values (40_cycle R152). -/

namespace Sys2Proof

/-- `MEM_SIZE` (00_scope R7): addresses 0x000 to 0xFFF exist. -/
abbrev Config.memSize : Nat := 4096

/-- The first address after the font region [0x000, 0x050) (00_scope R7; 10_state R31). -/
abbrev Config.fontEnd : Nat := 0x050

/-- The bytes of one glyph (00_scope R7). -/
abbrev Config.glyphBytes : Nat := 5

/-- `PROG_BASE`, where the program is loaded and where PC starts (00_scope R7; 70_reset R401). -/
abbrev Config.progBase : Nat := 0x200

/-- `MAX_ROM`, the longest program (00_scope R7; 70_reset R403). -/
abbrev Config.maxRom : Nat := 3584

/-- `STEPS_PER_TICK`, whose value for this hardware is 1 (00_scope R8; 92_eei D2). The tick is defined for every
number of steps; this is the number `step` uses (log 3). -/
abbrev Config.stepsPerTick : Nat := 1

/-- `INIT_RAM`: the byte at reset of every address that neither the font nor the program initialises. DESIGN CHOICE:
the spec leaves it OPEN and recommends 0x00 (00_scope R8; 92_eei D14), which is taken here. Unsafe: a claim about the
reset state could lean on the zero; `load` takes INIT_RAM as an argument (log 2). -/
def Config.initRam : Nat → Byte := fun _ => 0

/-- Glyphs 0 to 7 of the font (10_state R31). -/
def Config.fontLow : List Byte :=
  [0xF0, 0x90, 0x90, 0x90, 0xF0] ++
  [0x20, 0x60, 0x20, 0x20, 0x70] ++
  [0xF0, 0x10, 0xF0, 0x80, 0xF0] ++
  [0xF0, 0x10, 0xF0, 0x10, 0xF0] ++
  [0x90, 0x90, 0xF0, 0x10, 0x10] ++
  [0xF0, 0x80, 0xF0, 0x10, 0xF0] ++
  [0xF0, 0x80, 0xF0, 0x90, 0xF0] ++
  [0xF0, 0x10, 0x20, 0x40, 0x40]

/-- Glyphs 8 to F of the font (10_state R31). -/
def Config.fontHigh : List Byte :=
  [0xF0, 0x90, 0xF0, 0x90, 0xF0] ++
  [0xF0, 0x90, 0xF0, 0x10, 0xF0] ++
  [0xF0, 0x90, 0xF0, 0x90, 0x90] ++
  [0xE0, 0x90, 0xE0, 0x90, 0xE0] ++
  [0xF0, 0x80, 0x80, 0x80, 0xF0] ++
  [0xE0, 0x90, 0x90, 0x90, 0xE0] ++
  [0xF0, 0x80, 0xF0, 0x80, 0xF0] ++
  [0xF0, 0x80, 0xF0, 0x80, 0x80]

/-- `FONT`, the 80 bytes of the hexadecimal font as 10_state R31 tabulates them. PRESUMED: the spec itself took them
from general knowledge (92_eei D15), so a claim about a drawn glyph is unsafe (log 1). -/
def Config.font : List Byte := Config.fontLow ++ Config.fontHigh

/-- `RAND`: the byte the n-th free draw of a CXNN step gives. A FREE VALUE with no law and no body (42_alu R212;
40_cycle R152; log 7). -/
opaque Config.drawByte : Nat → Byte

/-- `KEY_CHOICE`: the number that selects, at the n-th free draw, which of several keys with a press edge FX0A
stores. A FREE VALUE with no law and no body (45_timers_keys R330; 40_cycle R152; log 8). -/
opaque Config.keyChoice : Nat → Nat

end Sys2Proof
end

