-- ==== Sys2Proof/Machine/State.lean ====
section
/-! DEFINITION. The state of the machine as plain data (10_state R20 to R44), its fault record (60_exceptions R368), the
reasons the interface's two stops can carry, and the state right after reset (10_state R43). -/

namespace Sys2Proof.Machine

/-- The run state (10_state R37; 40_cycle R140). -/
inductive RunState where
  | running
  | paused
  /-- Reached only by the host's quit; terminal (40_cycle R141). -/
  | stopped
  /-- Reached only by a fatal error; terminal (40_cycle R142). -/
  | faulted
  deriving DecidableEq, Repr

/-- The causes of a run-time fault, in the order of their codes 1 to 6 (60_exceptions R360). -/
inductive FaultCause where
  | unimplementedOpcode
  | stackOverflow
  | stackUnderflow
  | memoryOutOfRange
  | fontRegionWrite
  | badKeyIndex
  deriving DecidableEq, Repr

/-- What a `raise Fault(cause, info)` carries (00_scope R12): the cause, with the offending memory address or the
offending register value where the cause has one (60_exceptions R360, R368). An address is an unbounded natural number
(20_memory R65; log 18). -/
structure Trap where
  cause : FaultCause
  address : Option Nat := none
  value : Option Byte := none
  deriving DecidableEq, Repr

/-- The fault record, the block's diagnostic output (10_state R41; 60_exceptions R368). -/
structure FaultRecord where
  cause : FaultCause
  pc : Word
  /-- The fetched word, or none for a fetch fault. -/
  opcode : Option Word
  address : Option Nat
  value : Option Byte
  deriving DecidableEq, Repr

/-- The inputs of one tick (40_cycle R131, R150): the keypad snapshot and the two control signals. -/
structure TickInput where
  keys : KeySet
  quit : Bool
  pauseToggle : Bool
  deriving DecidableEq, Repr

/-- The memory, as the (address, byte) pairs that differ from what an unlisted address reads as, addresses rising. -/
abbrev Memory := List Host.Cell

/-- The machine (10_state R20). -/
structure State where
  /-- mem[0] to mem[4095] (10_state R30). -/
  mem : Memory
  /-- V[0] to V[15] (10_state R21). -/
  v : Vector Byte 16
  /-- The index register I (10_state R24). -/
  i : Word
  /-- The program counter (10_state R25). -/
  pc : Word
  /-- The stack slots S[0] to S[11] (10_state R28). -/
  stack : Vector Word 12
  /-- The depth counter SP, the index of the next free slot, 0 to 12 (10_state R28). -/
  sp : Fin 13
  /-- The delay timer DT (10_state R33). -/
  dt : Byte
  /-- The sound timer ST (10_state R33). -/
  st : Byte
  /-- The framebuffer (10_state R35). -/
  fb : Framebuffer
  /-- The run state (10_state R37). -/
  run : RunState
  /-- The FX0A sub-state `await`: the register that awaits a key, if one does (10_state R38). -/
  awaitKey : Option RegIdx
  /-- The keypad snapshot of the latest Running tick, `Kprev` (10_state R40). -/
  kprev : KeySet
  /-- The fault record (10_state R41). -/
  fault : Option FaultRecord
  /-- The keypad snapshot K latched for the current tick (10_state R36; 40_cycle R131). -/
  keypad : KeySet
  /-- The MODEL'S OWN field: the tick inputs still to come, oldest first (40_cycle R131, R151; log 4). -/
  inputs : List TickInput
  /-- The MODEL'S OWN field: how many free inputs have been taken; it numbers the free values (40_cycle R152; log 7). -/
  draws : Nat
  deriving DecidableEq, Repr

/-- Why no machine exists: the two load errors (60_exceptions R367; 70_reset R404). Only `load` raises one; no step and
no instruction does, because a run-time fault is a next state whose `run` is `faulted` (40_cycle R127; log 9). -/
inductive Fault where
  /-- Raised by `load` when the program is longer than 3584 bytes (70_reset R404). Safe: the spec builds no machine. -/
  | romTooLarge
  /-- Raised by `load` when the program could not be read (70_reset R404). Safe: the spec builds no machine. -/
  | romUnreadable
  deriving DecidableEq, Repr

/-- Why an instruction has no meaning. -/
inductive Refusal where
  /-- An arm of `exec` that has no meaning yet. Safe: nothing is proved of it. Nothing raises it: every instruction of
  the opcode map has its meaning. -/
  | notModelled (mnemonic : String)
  deriving DecidableEq, Repr

/-- The machine right after reset, with an empty program (10_state R43; 70_reset R400, R403). Memory lists nothing: the
font and INIT_RAM are what an unlisted address reads as. The values of `keypad`, `inputs` and `draws` are the model's
(DESIGN CHOICE; log 4, log 5, log 7). -/
def State.reset : State where
  mem := []
  v := Vector.replicate 16 0
  i := 0
  pc := 0x200
  stack := Vector.replicate 12 0
  sp := 0
  dt := 0
  st := 0
  fb := Vector.replicate 32 (Vector.replicate 64 false)
  run := .running
  awaitKey := none
  kprev := 0
  fault := none
  keypad := 0
  inputs := []
  draws := 0

end Sys2Proof.Machine
end

