-- ==== Sys2Proof/Machine/Ops.lean ====
section
/-! DEFINITION. The named operations over memory, registers and the stack, and taking a fault. Every read and write of
the state by an instruction goes through these. -/

namespace Sys2Proof.Machine

/-! ## Memory (20_memory) -/

/-- What an address that memory does not list reads as: the reset contents, the font below 0x050 and INIT_RAM elsewhere
(10_state R31, R43; 20_memory R61). -/
def Memory.unlisted (a : Nat) : Byte :=
  if a < Config.fontEnd then Config.font.getD a 0 else Config.initRam a

/-- The byte mem[a], with no bounds check. -/
def Memory.read : Memory → Nat → Byte
  | [], a => Memory.unlisted a
  | (b, v) :: rest, a => if b = a then v else Memory.read rest a

/-- The memory without an entry for the address. -/
def Memory.remove (m : Memory) (a : Nat) : Memory := m.filter fun c => decide (c.1 ≠ a)

/-- The memory with an entry put before the first higher address. -/
def Memory.place : Memory → Nat → Byte → Memory
  | [], a, v => [(a, v)]
  | (b, w) :: rest, a, v => if a < b then (a, v) :: (b, w) :: rest else (b, w) :: Memory.place rest a v

/-- mem[a] <- v, with no bounds check, in canonical form: writing what an unlisted address reads as removes the entry. -/
def Memory.write (m : Memory) (a : Nat) (v : Byte) : Memory :=
  if v = Memory.unlisted a then m.remove a else (m.remove a).place a v

/-- The canonical form: addresses strictly rising, no entry equal to what an unlisted address reads as, and none in the
font region or outside memory (20_memory R60, R61, R64). -/
abbrev Memory.wf (m : Memory) : Prop :=
  m.Pairwise (fun c d => c.1 < d.1) ∧
    ∀ c ∈ m, c.2 ≠ Memory.unlisted c.1 ∧ Config.fontEnd ≤ c.1 ∧ c.1 < Config.memSize

/-- `MemRead(a, 1)`: bounds-checked, never wrapped (20_memory R63, R65). -/
def memRead (m : Memory) (a : Nat) : Except Trap Byte :=
  if 0xFFF < a then .error (Trap.mk .memoryOutOfRange (some a) none) else .ok (m.read a)

/-- `MemWrite(a, 1, v)`: the bounds check first, then the font check (20_memory R64). -/
def memWrite (m : Memory) (a : Nat) (v : Byte) : Except Trap Memory :=
  if 0xFFF < a then .error (Trap.mk .memoryOutOfRange (some a) none)
  else if a < 0x050 then .error (Trap.mk .fontRegionWrite (some a) none)
  else .ok (m.write a v)

/-- `n` bytes from address `a` up, read in increasing address order (43_index_memory R250; 44_display R292). -/
def readBlock (m : Memory) (a : Nat) : Nat → Except Trap (List Byte)
  | 0 => .ok []
  | n + 1 =>
    match memRead m a with
    | .error t => .error t
    | .ok b =>
      match readBlock m (a + 1) n with
      | .error t => .error t
      | .ok bs => .ok (b :: bs)

/-- The bytes written from address `a` up, in increasing address order (43_index_memory R250). -/
def writeBlock (m : Memory) (a : Nat) : List Byte → Except Trap Memory
  | [] => .ok m
  | b :: bs =>
    match memWrite m a b with
    | .error t => .error t
    | .ok m' => writeBlock m' (a + 1) bs

/-! ## Registers -/

/-- V[x] (10_state R21). -/
def State.reg (s : State) (x : RegIdx) : Byte := s.v[x]

/-- V[x] <- b. No register is hardwired (10_state R21). -/
def State.setReg (s : State) (x : RegIdx) (b : Byte) : State := { s with v := s.v.set x b }

/-- All sixteen registers at once. -/
def State.setV (s : State) (v : Vector Byte 16) : State := { s with v := v }

/-- I <- w (10_state R24). -/
def State.setI (s : State) (w : Word) : State := { s with i := w }

/-- PC <- w (10_state R25). -/
def State.setPC (s : State) (w : Word) : State := { s with pc := w }

/-- PC <- a + 2, which the fetch does before dispatch (40_cycle R122). -/
def State.advance (s : State) : State := s.setPC (s.pc + 2)

/-- DT <- b (10_state R33). -/
def State.setDT (s : State) (b : Byte) : State := { s with dt := b }

/-- ST <- b (10_state R33). -/
def State.setST (s : State) (b : Byte) : State := { s with st := b }

/-- The memory replaced by one with this instruction's stores made. -/
def State.setMem (s : State) (m : Memory) : State := { s with mem := m }

/-- The framebuffer replaced (44_display R290: by draw and clear only). -/
def State.setFB (s : State) (fb : Framebuffer) : State := { s with fb := fb }

/-- await <- w (10_state R38). -/
def State.setAwait (s : State) (w : Option RegIdx) : State := { s with awaitKey := w }

/-- run <- r (10_state R37). -/
def State.setRun (s : State) (r : RunState) : State := { s with run := r }

/-- Kprev <- k (10_state R40). -/
def State.setKprev (s : State) (k : KeySet) : State := { s with kprev := k }

/-- One more free input has been taken (40_cycle R152). -/
def State.countDraw (s : State) : State := { s with draws := s.draws + 1 }

/-! ## Stack (41_control R161) -/

/-- The stack and its depth replaced. -/
def State.setStack (s : State) (stack : Vector Word 12) (sp : Fin 13) : State := { s with stack := stack, sp := sp }

/-- `push(w)`: StackOverflow when SP = 12, else S[SP] <- w and SP <- SP + 1 (41_control R161). -/
def State.push (s : State) (w : Word) : Except Trap State :=
  if h : s.sp.val < 12 then .ok (s.setStack (s.stack.set s.sp.val w) ⟨s.sp.val + 1, by omega⟩)
  else .error (Trap.mk .stackOverflow none none)

/-- `pop()`: StackUnderflow when SP = 0, else SP <- SP - 1 and the result is S[SP] (41_control R161). -/
def State.pop (s : State) : Except Trap (Word × State) :=
  if h : s.sp.val = 0 then .error (Trap.mk .stackUnderflow none none)
  else .ok (s.stack[s.sp.val - 1]'(by have := s.sp.isLt; omega),
    s.setStack s.stack ⟨s.sp.val - 1, by have := s.sp.isLt; omega⟩)

/-! ## Taking a fault (40_cycle R127; 60_exceptions R368, R371) -/

/-- The code of a cause (60_exceptions R360). -/
def FaultCause.code : FaultCause → Nat
  | .unimplementedOpcode => 1
  | .stackOverflow => 2
  | .stackUnderflow => 3
  | .memoryOutOfRange => 4
  | .fontRegionWrite => 5
  | .badKeyIndex => 6

/-- Fault entry, from the state before the faulting step: the record is written and `run` becomes `faulted`; nothing else
changes, so PC stays the address of the faulting instruction (40_cycle R127; 60_exceptions R371). `op` is the fetched
word, none for a fetch fault. There is no return from a fault (60_exceptions R372), so no operation undoes this one. -/
def takeFault (s : State) (op : Option Word) (t : Trap) : State :=
  { s with run := .faulted, fault := some ⟨t.cause, s.pc, op, t.address, t.value⟩ }

/-- The end of an instruction whose checks may raise: its state where they passed, else fault entry from the state before
the step, with the instruction's own word as the recorded opcode (40_cycle R121, R127; log 17). -/
def complete (i : Instr) (s : State) : Except Trap State → Host.Outcome State Fault Refusal
  | .ok t => .next t
  | .error t => .next (takeFault s (some (encode i)) t)

end Sys2Proof.Machine
end

