-- ==== Sys2Proof/Machine/Flags.lean ====
section
/-! DEFINITION. Every flag computation of the ISA: VF is the only flag (10_state R22; 42_alu R200, R213). -/

namespace Sys2Proof.Machine

/-- A condition as the value VF takes, 1 or 0. -/
def flagOf (c : Bool) : Byte := if c then 1 else 0

/-- 8XY4: 1 when the exact sum is above 255 (42_alu R207). -/
def carryOut (x y : Byte) : Byte := flagOf (decide (255 < x.toNat + y.toNat))

/-- 8XY5 and 8XY7: 1 when the first operand is at least the second, no borrow (42_alu R208, R210). -/
def notBorrow (a b : Byte) : Byte := flagOf (decide (b.toNat ≤ a.toNat))

/-- 8XY6: the least-significant bit, before the shift (42_alu R209). -/
def shiftedOutRight (x : Byte) : Byte := x &&& 1

/-- 8XYE: the most-significant bit, before the shift (42_alu R211). -/
def shiftedOutLeft (x : Byte) : Byte := x >>> 7

/-- A result into V[x] and then its flag into VF, so that the flag is what VF holds when x is 0xF (42_alu R200;
10_state R22; 90_conflicts C9). -/
def State.setFlagged (s : State) (x : RegIdx) (result flag : Byte) : State := (s.setReg x result).setReg VF flag

end Sys2Proof.Machine
end

