-- ==== Sys2Proof/Machine/Operands.lean ====
section
/-! DEFINITION. The operand forms: immediates, key indices, digits, screen positions, register blocks, effective
addresses, and the skip (30_encoding R92; 41_control R160; 43_index_memory R250). -/

namespace Sys2Proof.Machine

/-- NNN zero-extended to the 16 bits of PC or I (30_encoding R92). -/
def zext16 (nnn : Addr12) : Word := nnn.setWidth 16

/-- The BNNN target NNN + V[0], neither wrapped nor masked: at most 0x10FE (41_control R169). -/
def offsetTarget (nnn : Addr12) (v0 : Byte) : Word := BitVec.ofNat 16 (nnn.toNat + v0.toNat)

/-- `skip_if(c)`: PC <- PC + 2 when the condition holds (41_control R160). -/
def State.skipIf (s : State) (c : Bool) : State := if c then s.setPC (s.pc + 2) else s

/-- The effective address I + k, an unbounded natural number (43_index_memory R250). -/
def State.effAddr (s : State) (k : Nat) : Nat := s.i.toNat + k

/-- The key a register value selects, or BadKeyIndex above 0xF (45_timers_keys R320). -/
def keyIndex (b : Byte) : Except Trap Key :=
  if h : b.toNat < 16 then .ok ⟨b.toNat, h⟩ else .error (Trap.mk .badKeyIndex none (some b))

/-- K[k] = 1 in a snapshot (00_scope R10). -/
def pressed (keys : KeySet) (k : Key) : Bool := keys.getLsbD k.val

/-- The address of the glyph for the low nibble of a register value, 5 * digit (43_index_memory R253; 10_state R32). -/
def glyphAddr (b : Byte) : Word := BitVec.ofNat 16 (Config.glyphBytes * (b &&& 0x0F).toNat)

/-- The three decimal digits of a byte, hundreds first (43_index_memory R254). -/
def bcdDigits (b : Byte) : List Byte :=
  [BitVec.ofNat 8 (b.toNat / 100), BitVec.ofNat 8 (b.toNat / 10 % 10), BitVec.ofNat 8 (b.toNat % 10)]

/-- The registers V[0] to V[x], lowest first (43_index_memory R255). -/
def State.regBlock (s : State) (x : RegIdx) : List Byte := s.v.toList.take (x.val + 1)

/-- The register file with the bytes put into V[0], V[1], ... (43_index_memory R256). -/
def overlayRegs (v : Vector Byte 16) (bs : List Byte) : Vector Byte 16 :=
  Vector.ofFn fun k => bs.getD k.val v[k]

/-- A screen column reached from column `x0` by `c` steps right, wrapping at 64 (44_display R292). -/
def wrapCol (x0 c : Nat) : Col := Fin.ofNat 64 (x0 + c)

/-- A screen row reached from row `y0` by `r` steps down, wrapping at 32 (44_display R292). -/
def wrapRow (y0 r : Nat) : Row := Fin.ofNat 32 (y0 + r)

end Sys2Proof.Machine
end

