-- ==== Sys2Proof/Machine/Alu.lean ====
section
/-! DEFINITION. The register file and ALU (42_alu): 6XNN, 7XNN, 8XY0 to 8XYE, CXNN. Operands are read from the state before
any write (40_cycle R126). None of these can fault. -/

namespace Sys2Proof.Machine

/-- 6XNN: V[X] <- NN (42_alu R201). -/
def execLdImm (x : RegIdx) (nn : Byte) (s : State) : Host.Outcome State Fault Refusal :=
  .next (s.advance.setReg x nn)

/-- 7XNN: V[X] <- V[X] + NN mod 256, no carry flag (42_alu R202). -/
def execAddImm (x : RegIdx) (nn : Byte) (s : State) : Host.Outcome State Fault Refusal :=
  .next (s.advance.setReg x (s.reg x + nn))

/-- 8XY0: V[X] <- V[Y] (42_alu R203). -/
def execLdReg (x y : RegIdx) (s : State) : Host.Outcome State Fault Refusal :=
  .next (s.advance.setReg x (s.reg y))

/-- 8XY1: V[X] <- V[X] OR V[Y]; VF is not cleared (42_alu R204). -/
def execOrReg (x y : RegIdx) (s : State) : Host.Outcome State Fault Refusal :=
  .next (s.advance.setReg x (s.reg x ||| s.reg y))

/-- 8XY2: V[X] <- V[X] AND V[Y]; VF is not cleared (42_alu R205). -/
def execAndReg (x y : RegIdx) (s : State) : Host.Outcome State Fault Refusal :=
  .next (s.advance.setReg x (s.reg x &&& s.reg y))

/-- 8XY3: V[X] <- V[X] XOR V[Y]; VF is not cleared (42_alu R206). -/
def execXorReg (x y : RegIdx) (s : State) : Host.Outcome State Fault Refusal :=
  .next (s.advance.setReg x (s.reg x ^^^ s.reg y))

/-- 8XY4: V[X] <- V[X] + V[Y] mod 256, VF <- carry (42_alu R207). -/
def execAddReg (x y : RegIdx) (s : State) : Host.Outcome State Fault Refusal :=
  .next (s.advance.setFlagged x (s.reg x + s.reg y) (carryOut (s.reg x) (s.reg y)))

/-- 8XY5: V[X] <- V[X] - V[Y] mod 256, VF <- no borrow (42_alu R208). -/
def execSubReg (x y : RegIdx) (s : State) : Host.Outcome State Fault Refusal :=
  .next (s.advance.setFlagged x (s.reg x - s.reg y) (notBorrow (s.reg x) (s.reg y)))

/-- 8XY6: V[X] <- V[X] >> 1, VF <- the bit shifted out; Y is not used (42_alu R209; 30_encoding R100). -/
def execShr (x _y : RegIdx) (s : State) : Host.Outcome State Fault Refusal :=
  .next (s.advance.setFlagged x (s.reg x >>> 1) (shiftedOutRight (s.reg x)))

/-- 8XY7: V[X] <- V[Y] - V[X] mod 256, VF <- no borrow (42_alu R210). -/
def execSubnReg (x y : RegIdx) (s : State) : Host.Outcome State Fault Refusal :=
  .next (s.advance.setFlagged x (s.reg y - s.reg x) (notBorrow (s.reg y) (s.reg x)))

/-- 8XYE: V[X] <- V[X] << 1 mod 256, VF <- the bit shifted out; Y is not used (42_alu R211; 30_encoding R100). -/
def execShl (x _y : RegIdx) (s : State) : Host.Outcome State Fault Refusal :=
  .next (s.advance.setFlagged x (s.reg x <<< 1) (shiftedOutLeft (s.reg x)))

/-- CXNN: V[X] <- a free byte AND NN (42_alu R212; log 7). -/
def execRnd (x : RegIdx) (nn : Byte) (s : State) : Host.Outcome State Fault Refusal :=
  .next (s.advance.countDraw.setReg x (Config.drawByte s.draws &&& nn))

end Sys2Proof.Machine
end

