-- ==== Sys2Proof/Machine/Control.lean ====
section
/-! DEFINITION. Control transfer and the stack controller (41_control): JP, CALL, RET, JP_V0 and the skips. Every meaning
takes the state before the step, with PC = a, and makes the fetch's PC <- a + 2 itself (log 10). -/

namespace Sys2Proof.Machine

/-- 00EE: pop the return address into PC (41_control R162). -/
def execRet (s : State) : Host.Outcome State Fault Refusal :=
  complete .ret s <|
    match s.advance.pop with
    | .error t => .error t
    | .ok (target, s') => .ok (s'.setPC target)

/-- 1NNN: PC <- NNN (41_control R163). -/
def execJp (nnn : Addr12) (s : State) : Host.Outcome State Fault Refusal := .next (s.advance.setPC (zext16 nnn))

/-- 2NNN: push PC = a + 2, then PC <- NNN (41_control R164). -/
def execCall (nnn : Addr12) (s : State) : Host.Outcome State Fault Refusal :=
  complete (.call nnn) s <|
    match s.advance.push s.advance.pc with
    | .error t => .error t
    | .ok s' => .ok (s'.setPC (zext16 nnn))

/-- 3XNN: skip if V[X] = NN (41_control R165). -/
def execSeImm (x : RegIdx) (nn : Byte) (s : State) : Host.Outcome State Fault Refusal :=
  .next (s.advance.skipIf (s.reg x == nn))

/-- 4XNN: skip if V[X] ≠ NN (41_control R166). -/
def execSneImm (x : RegIdx) (nn : Byte) (s : State) : Host.Outcome State Fault Refusal :=
  .next (s.advance.skipIf (s.reg x != nn))

/-- 5XY0: skip if V[X] = V[Y] (41_control R167). -/
def execSeReg (x y : RegIdx) (s : State) : Host.Outcome State Fault Refusal :=
  .next (s.advance.skipIf (s.reg x == s.reg y))

/-- 9XY0: skip if V[X] ≠ V[Y] (41_control R168). -/
def execSneReg (x y : RegIdx) (s : State) : Host.Outcome State Fault Refusal :=
  .next (s.advance.skipIf (s.reg x != s.reg y))

/-- BNNN: PC <- NNN + V[0] (41_control R169). -/
def execJpV0 (nnn : Addr12) (s : State) : Host.Outcome State Fault Refusal :=
  .next (s.advance.setPC (offsetTarget nnn (s.reg 0)))

end Sys2Proof.Machine
end

