-- ==== Sys2Proof/Machine/Display.lean ====
section
/-! DEFINITION. The framebuffer writer (44_display): 00E0 and DXYN, the only instructions that write the framebuffer. -/

namespace Sys2Proof.Machine

/-- The framebuffer with every cell unlit (44_display R291). -/
def clearFB : Framebuffer := Vector.replicate 32 (Vector.replicate 64 false)

/-- FB[x, y] (10_state R35). -/
def cell (fb : Framebuffer) (x : Col) (y : Row) : Bool := fb[y][x]

/-- FB[x, y] <- FB[x, y] XOR 1 (44_display R292). -/
def flipCell (fb : Framebuffer) (x : Col) (y : Row) : Framebuffer := fb.set y.val (fb[y].set x.val (!(cell fb x y)))

/-- What a draw carries along: the framebuffer and whether a lit cell has gone unlit. -/
structure Canvas where
  fb : Framebuffer
  hit : Bool
  deriving DecidableEq, Repr

/-- One set sprite bit on the cell it covers: the cell flips, and a cell that was lit is a collision
(44_display R292, R293). -/
def plot (c : Canvas) (x : Col) (y : Row) : Canvas := ⟨flipCell c.fb x y, c.hit || cell c.fb x y⟩

/-- The bit of a sprite row at column offset `k`, the most significant bit leftmost (44_display R290). -/
def spriteBit (row : Byte) (k : Nat) : Bool := row.getLsbD (7 - k)

/-- One sprite row at row `y`, its eight bits from the left (44_display R292). -/
def drawRow (x0 : Nat) (y : Row) (row : Byte) (c : Canvas) : Canvas :=
  (List.range 8).foldl (fun acc k => if spriteBit row k then plot acc (wrapCol x0 k) y else acc) c

/-- The sprite rows from row offset `r` down (44_display R292). -/
def drawRows (x0 y0 : Nat) : Nat → List Byte → Canvas → Canvas
  | _, [], c => c
  | r, row :: rows, c => drawRows x0 y0 (r + 1) rows (drawRow x0 (wrapRow y0 r) row c)

/-- 00E0: every cell unlit (44_display R291). -/
def execCls (s : State) : Host.Outcome State Fault Refusal := .next (s.advance.setFB clearFB)

/-- DXYN: all N bytes are read before any write; the sprite is XORed at (V[X] mod 64, V[Y] mod 32), wrapping; VF is written
last with the collision (44_display R292, R293). -/
def execDrw (x y : RegIdx) (n : Nibble) (s : State) : Host.Outcome State Fault Refusal :=
  complete (.drw x y n) s <|
    match readBlock s.mem (s.effAddr 0) n.toNat with
    | .error t => .error t
    | .ok rows =>
      let c := drawRows ((s.reg x).toNat % 64) ((s.reg y).toNat % 32) 0 rows ⟨s.fb, false⟩
      .ok ((s.advance.setFB c.fb).setReg VF (flagOf c.hit))

end Sys2Proof.Machine
end

