-- ==== Sys2Proof/Machine/IndexMemory.lean ====
section
/-! DEFINITION. The index register and the memory transfers (43_index_memory): ANNN, FX1E, FX29, FX33, FX55, FX65. -/

namespace Sys2Proof.Machine

/-- ANNN: I <- NNN (43_index_memory R251). -/
def execLdI (nnn : Addr12) (s : State) : Host.Outcome State Fault Refusal := .next (s.advance.setI (zext16 nnn))

/-- FX1E: I <- I + V[X] mod 65536, no flag (43_index_memory R252). -/
def execAddI (x : RegIdx) (s : State) : Host.Outcome State Fault Refusal :=
  .next (s.advance.setI (s.i + (s.reg x).setWidth 16))

/-- FX29: I <- the address of the glyph for the low nibble of V[X] (43_index_memory R253). -/
def execLdF (x : RegIdx) (s : State) : Host.Outcome State Fault Refusal :=
  .next (s.advance.setI (glyphAddr (s.reg x)))

/-- The store of a block of bytes from I up, with every check before any write is kept (43_index_memory R250, R254, R255;
40_cycle R127). -/
def storeAtI (s : State) (bs : List Byte) : Except Trap State :=
  match writeBlock s.mem (s.effAddr 0) bs with
  | .error t => .error t
  | .ok m => .ok (s.advance.setMem m)

/-- FX33: the three decimal digits of V[X] to mem[I], mem[I+1], mem[I+2] (43_index_memory R254). -/
def execLdB (x : RegIdx) (s : State) : Host.Outcome State Fault Refusal :=
  complete (.ldB x) s (storeAtI s (bcdDigits (s.reg x)))

/-- FX55: V[0..X] to mem[I..I+X], I unchanged (43_index_memory R255). -/
def execLdMemStore (x : RegIdx) (s : State) : Host.Outcome State Fault Refusal :=
  complete (.ldMemStore x) s (storeAtI s (s.regBlock x))

/-- FX65: mem[I..I+X] to V[0..X], I unchanged (43_index_memory R256). -/
def execLdMemLoad (x : RegIdx) (s : State) : Host.Outcome State Fault Refusal :=
  complete (.ldMemLoad x) s <|
    match readBlock s.mem (s.effAddr 0) (x.val + 1) with
    | .error t => .error t
    | .ok bs => .ok (s.advance.setV (overlayRegs s.v bs))

end Sys2Proof.Machine
end

