-- ==== Sys2Proof/Machine/TimersKeys.lean ====
section
/-! DEFINITION. The keypad and timer instructions, the completion of FX0A's wait, and the timer countdown
(45_timers_keys). -/

namespace Sys2Proof.Machine

/-- EX9E: skip if key V[X] is pressed in this tick's snapshot (45_timers_keys R320, R321). -/
def execSkp (x : RegIdx) (s : State) : Host.Outcome State Fault Refusal :=
  complete (.skp x) s <|
    match keyIndex (s.reg x) with
    | .error t => .error t
    | .ok k => .ok (s.advance.skipIf (pressed s.keypad k))

/-- EXA1: skip if key V[X] is not pressed in this tick's snapshot (45_timers_keys R320, R322). -/
def execSknp (x : RegIdx) (s : State) : Host.Outcome State Fault Refusal :=
  complete (.sknp x) s <|
    match keyIndex (s.reg x) with
    | .error t => .error t
    | .ok k => .ok (s.advance.skipIf (!(pressed s.keypad k)))

/-- FX07: V[X] <- DT (45_timers_keys R323). -/
def execLdVxDT (x : RegIdx) (s : State) : Host.Outcome State Fault Refusal := .next (s.advance.setReg x s.dt)

/-- FX0A: await <- AwaitingKey(X), PC left at a + 2; the wait is completed in a later tick (45_timers_keys R324). -/
def execLdVxK (x : RegIdx) (s : State) : Host.Outcome State Fault Refusal := .next (s.advance.setAwait (some x))

/-- FX15: DT <- V[X] (45_timers_keys R325). -/
def execLdDTVx (x : RegIdx) (s : State) : Host.Outcome State Fault Refusal := .next (s.advance.setDT (s.reg x))

/-- FX18: ST <- V[X] (45_timers_keys R326). -/
def execLdSTVx (x : RegIdx) (s : State) : Host.Outcome State Fault Refusal := .next (s.advance.setST (s.reg x))

/-! ## Wait completion (45_timers_keys R330, R332) -/

/-- The keys with a press edge: pressed in `now`, released in `before`, in rising order (45_timers_keys R332). -/
def pressEdges (now before : KeySet) : List Key :=
  (List.finRange 16).filter fun k => pressed now k && !(pressed before k)

/-- The end of a wait: V[x] <- k and await <- None (45_timers_keys R330). -/
def State.storeKey (s : State) (x : RegIdx) (k : Key) : State := (s.setReg x (BitVec.ofNat 8 k.val)).setAwait none

/-- `complete_wait(x, K)`: with no edge the wait goes on; with one, that key is stored; with several, one of them by a free
choice (45_timers_keys R330; log 8). -/
def completeWait (x : RegIdx) (s : State) : State :=
  match pressEdges s.keypad s.kprev with
  | [] => s
  | [k] => s.storeKey x k
  | k :: l :: rest =>
    s.countDraw.storeKey x ((k :: l :: rest).getD (Config.keyChoice s.draws % (rest.length + 2)) k)

/-! ## Timer countdown (45_timers_keys R340, R341) -/

/-- One timer's decrement, floor 0 (45_timers_keys R340). -/
def countDown (t : Byte) : Byte := if t = 0 then 0 else t - 1

/-- `decay_timers()` (45_timers_keys R340). -/
def decayTimers (s : State) : State := (s.setDT (countDown s.dt)).setST (countDown s.st)

/-- The output `sound_on = (ST > 0)` (10_state R34; 45_timers_keys R341). -/
def State.soundOn (s : State) : Bool := decide (0 < s.st.toNat)

end Sys2Proof.Machine
end

