-- ==== Sys2Proof/Machine/Cycle.lean ====
section
/-! DEFINITION. The instruction step (40_cycle R120 to R127), the tick around it (R130 to R139) and the outputs read between
ticks (R150, R153). -/

namespace Sys2Proof.Machine

/-- Fetch: two bytes at PC and PC + 1, the lower address checked first, high byte first (40_cycle R122; 20_memory R66). -/
def fetch (s : State) : Except Trap Word :=
  match memRead s.mem s.pc.toNat with
  | .error t => .error t
  | .ok hi =>
    match memRead s.mem (s.pc.toNat + 1) with
    | .error t => .error t
    | .ok lo => .ok (bigEndian hi lo)

/-- `step()`: fetch, decode, execute. A fetch fault records no opcode; a word outside the opcode map is an
UnimplementedOpcode fault (40_cycle R121, R127; 60_exceptions R361, R369). -/
def instrStep (s : State) : Host.Outcome State Fault Refusal :=
  match fetch s with
  | .error t => .next (takeFault s none t)
  | .ok op =>
    match decode op with
    | .unimplemented w => .next (takeFault s (some w) (Trap.mk .unimplementedOpcode none none))
    | .instr i => exec i s

/-- The batch of at most `n` steps of a tick: it ends early when a step waits for a key or faults (40_cycle R136, R139). -/
def runBatch : Nat → State → Host.Outcome State Fault Refusal
  | 0, s => .next s
  | n + 1, s =>
    match instrStep s with
    | .next t => if t.run = .faulted ∨ t.awaitKey.isSome then .next t else runBatch n t
    | .fault r => .fault r
    | .refused r => .refused r

/-- The inputs of the next tick: the oldest one pending, or, with none pending, the keypad at its present level and neither
control signal (40_cycle R131; log 4). -/
def nextInput (s : State) : TickInput :=
  match s.inputs with
  | [] => ⟨s.keypad, false, false⟩
  | t :: _ => t

/-- The input latch at the start of a tick: the snapshot into the keypad, the record taken off the list (40_cycle R131). -/
def latch (s : State) : State := { s with keypad := (nextInput s).keys, inputs := s.inputs.tail }

/-- The pause toggle (40_cycle R133). -/
def togglePause (s : State) : State := s.setRun (if s.run = .running then .paused else .running)

/-- The end of a Running tick: one timer decay, then Kprev <- K (40_cycle R137, R138). -/
def endTick (s : State) : State := (decayTimers s).setKprev s.keypad

/-- The work of a tick whose run state is Running after the control signals: the wait completion or the batch of steps, then
the end of the tick, which a faulting tick does not reach (40_cycle R135, R136, R139). -/
def runningTick (n : Nat) (s : State) : Host.Outcome State Fault Refusal :=
  match s.awaitKey with
  | some x => .next (endTick (completeWait x s))
  | none =>
    match runBatch n s with
    | .next t => if t.run = .faulted then .next t else .next (endTick t)
    | .fault r => .fault r
    | .refused r => .refused r

/-- The tick once its inputs are latched: quit first and alone, then the pause toggle, whose new value governs the same
tick (40_cycle R130, R132, R133, R134). -/
def liveTick (n : Nat) (inp : TickInput) (s : State) : Host.Outcome State Fault Refusal :=
  if inp.quit then .next (s.setRun .stopped)
  else
    let s' := if inp.pauseToggle then togglePause s else s
    if s'.run = .paused then .next s' else runningTick n s'

/-- The tick of `n` steps. Stopped and Faulted are terminal: no tick changes any state (40_cycle R130, R141, R142). -/
def tick (n : Nat) (s : State) : Host.Outcome State Fault Refusal :=
  match s.run with
  | .stopped => .next s
  | .faulted => .next s
  | .running => liveTick n (nextInput s) (latch s)
  | .paused => liveTick n (nextInput s) (latch s)

/-- What the host reads between ticks (40_cycle R150, R153). -/
structure Outputs where
  fb : Framebuffer
  soundOn : Bool
  run : RunState
  fault : Option FaultRecord
  deriving DecidableEq, Repr

/-- The outputs of a state (40_cycle R153, R155; 45_timers_keys R341). -/
def State.outputs (s : State) : Outputs := ⟨s.fb, s.soundOn, s.run, s.fault⟩

/-- The state made ready to fetch at PC in the very next tick: Running, awaiting no key, PC at a place where a whole word
can be fetched, and no quit or pause toggle pending in that tick. From reset nothing changes (log 12). -/
def readyToFetch (s : State) : State :=
  { s with
    run := .running
    awaitKey := none
    pc := if s.pc.toNat ≤ 0xFFE then s.pc else 0x200
    inputs := match s.inputs with
      | [] => []
      | t :: rest => ⟨t.keys, false, false⟩ :: rest }

/-- The word placed where the next fetch reads it, high byte first (20_memory R66). -/
def placeWordAtPC (s : State) (op : Word) : State :=
  s.setMem ((s.mem.write s.pc.toNat (highByte op)).write (s.pc.toNat + 1) (lowByte op))

end Sys2Proof.Machine
end

