-- ==== Sys2Proof/Machine/Step.lean ====
section
/-! DEFINITION. One step of the machine as the host sees it: one tick (40_cycle R130; log 11), of STEPS_PER_TICK = 1
instruction. -/

namespace Sys2Proof.Machine

/-- One tick with this hardware's number of steps (00_scope R8; 40_cycle R136). -/
def step (s : State) : Host.Outcome State Fault Refusal := tick Config.stepsPerTick s

/-- The state with the word of the opcode table stored where the next tick fetches (log 12). -/
def State.withFetchWord (s : State) (nbits w : Nat) : State :=
  placeWordAtPC (readyToFetch s) (tableWord nbits w)

end Sys2Proof.Machine
end

