-- ==== Sys2Proof/Machine/Boot.lean ====
section
/-! DEFINITION. The load operation: reset with a program (70_reset R400 to R404; 40_cycle R154). -/

namespace Sys2Proof.Machine

/-- The bytes put into memory from address `a` up, with no bounds check: the loader's copy (70_reset R403). -/
def Memory.putBytes (m : Memory) (a : Nat) : List Byte → Memory
  | [] => m
  | b :: bs => Memory.putBytes (m.write a b) (a + 1) bs

/-- `n` addresses from `a` up each given the byte `f` has for them. -/
def Memory.fill (f : Nat → Byte) (m : Memory) (a : Nat) : Nat → Memory
  | 0 => m
  | n + 1 => Memory.fill f (m.write a (f a)) (a + 1) n

/-- The memory after reset: INIT_RAM everywhere but in the font, which is what an unlisted address below 0x050 reads as,
then the program from 0x200 (70_reset R400, R402, R403). -/
def bootMemory (initRam : Nat → Byte) (rom : List Byte) : Memory :=
  Memory.putBytes (Memory.fill initRam [] Config.fontEnd (Config.memSize - Config.fontEnd)) Config.progBase rom

/-- `reset(rom)` for a given INIT_RAM: the machine with the program loaded, or a load error and no machine. `none` is a
program that could not be read (70_reset R400, R404; 60_exceptions R367). -/
def load (initRam : Nat → Byte) (rom : Option (List Byte)) : Host.Outcome State Fault Refusal :=
  match rom with
  | none => .fault .romUnreadable
  | some bytes =>
    if Config.maxRom < bytes.length then .fault .romTooLarge
    else .next (State.reset.setMem (bootMemory initRam bytes))

end Sys2Proof.Machine
end

