-- ==== Sys2Proof/Safety.lean ====
section
/-! DEFINITION. The terms claims are stated in: the places of the state and what stays unchanged, the table of what each
instruction may write (10_state R23), the conditions under which an instruction faults (60_exceptions R360, R369), the
run-state transitions (40_cycle R140), and the invariants of the machine. None of them is used by the machine. -/

namespace Sys2Proof.Machine

/-! ## Places and frames -/

/-- Every place of the state that can be named: one register, one memory byte, one framebuffer cell, one stack slot. -/
inductive Place where
  | reg (r : RegIdx)
  | index
  | pc
  | sp
  | slot (j : Fin 12)
  | dt
  | st
  | cell (x : Col) (y : Row)
  | mem (a : Nat)
  | run
  | awaitKey
  | kprev
  | fault
  | keypad
  | inputs
  | draws
  deriving DecidableEq, Repr

/-- The place holds the same in both states; a memory byte is compared by reading it. -/
def Place.same : Place → State → State → Prop
  | .reg r, s, t => t.reg r = s.reg r
  | .index, s, t => t.i = s.i
  | .pc, s, t => t.pc = s.pc
  | .sp, s, t => t.sp = s.sp
  | .slot j, s, t => t.stack[j] = s.stack[j]
  | .dt, s, t => t.dt = s.dt
  | .st, s, t => t.st = s.st
  | .cell x y, s, t => Machine.cell t.fb x y = Machine.cell s.fb x y
  | .mem a, s, t => t.mem.read a = s.mem.read a
  | .run, s, t => t.run = s.run
  | .awaitKey, s, t => t.awaitKey = s.awaitKey
  | .kprev, s, t => t.kprev = s.kprev
  | .fault, s, t => t.fault = s.fault
  | .keypad, s, t => t.keypad = s.keypad
  | .inputs, s, t => t.inputs = s.inputs
  | .draws, s, t => t.draws = s.draws

/-- Every place outside `written` holds in `t` what it held in `s`. -/
def unchangedBut (written : Place → Prop) (s t : State) : Prop := ∀ p : Place, ¬ written p → p.same s t

/-- The places an instruction that completes may write, given the state before it: the "writes" column of 10_state R23,
with the one slot S[SP] of a call, the bytes I to I + X of a store, and PC, which every instruction writes at fetch. -/
def mayWrite (i : Instr) (s : State) (p : Place) : Prop :=
  p = .pc ∨
  match i with
  | .cls => ∃ x y, p = .cell x y
  | .ret => p = .sp
  | .jp _ => False
  | .call _ => p = .sp ∨ ∃ j : Fin 12, j.val = s.sp.val ∧ p = .slot j
  | .seImm _ _ => False
  | .sneImm _ _ => False
  | .seReg _ _ => False
  | .ldImm x _ => p = .reg x
  | .addImm x _ => p = .reg x
  | .ldReg x _ => p = .reg x
  | .orReg x _ => p = .reg x
  | .andReg x _ => p = .reg x
  | .xorReg x _ => p = .reg x
  | .addReg x _ => p = .reg x ∨ p = .reg VF
  | .subReg x _ => p = .reg x ∨ p = .reg VF
  | .shr x _ => p = .reg x ∨ p = .reg VF
  | .subnReg x _ => p = .reg x ∨ p = .reg VF
  | .shl x _ => p = .reg x ∨ p = .reg VF
  | .sneReg _ _ => False
  | .ldI _ => p = .index
  | .jpV0 _ => False
  | .rnd x _ => p = .reg x ∨ p = .draws
  | .drw _ _ _ => p = .reg VF ∨ ∃ x y, p = .cell x y
  | .skp _ => False
  | .sknp _ => False
  | .ldVxDT x => p = .reg x
  | .ldVxK _ => p = .awaitKey
  | .ldDTVx _ => p = .dt
  | .ldSTVx _ => p = .st
  | .addI _ => p = .index
  | .ldF _ => p = .index
  | .ldB _ => ∃ k, k < 3 ∧ p = .mem (s.effAddr k)
  | .ldMemStore x => ∃ k, k ≤ x.val ∧ p = .mem (s.effAddr k)
  | .ldMemLoad x => ∃ r : RegIdx, r.val ≤ x.val ∧ p = .reg r

/-! ## When an instruction faults -/

/-- The fault of reading `n` bytes from address `a` up: the lowest address above 0xFFF (60_exceptions R364, R369). -/
def readTrap (a n : Nat) : Option Trap :=
  if 0 < n ∧ 0xFFF < a + (n - 1) then some ⟨.memoryOutOfRange, some (max a 0x1000), none⟩ else none

/-- The fault of writing `n` bytes from address `a` up, `n` at least 1: a base in the font region is reported as itself,
else the lowest address above 0xFFF (60_exceptions R364, R365, R369). -/
def writeTrap (a n : Nat) : Option Trap :=
  if a < 0x050 then some ⟨.fontRegionWrite, some a, none⟩ else readTrap a n

/-- The fault an instruction raises in a state, if it raises one: the conditions of 60_exceptions R360 and of each
instruction's "Faults" line. -/
def trapOf (i : Instr) (s : State) : Option Trap :=
  match i with
  | .ret => if s.sp = 0 then some ⟨.stackUnderflow, none, none⟩ else none
  | .call _ => if s.sp = 12 then some ⟨.stackOverflow, none, none⟩ else none
  | .drw _ _ n => readTrap s.i.toNat n.toNat
  | .ldB _ => writeTrap s.i.toNat 3
  | .ldMemStore x => writeTrap s.i.toNat (x.val + 1)
  | .ldMemLoad x => readTrap s.i.toNat (x.val + 1)
  | .skp x => if 0xF < (s.reg x).toNat then some ⟨.badKeyIndex, none, some (s.reg x)⟩ else none
  | .sknp x => if 0xF < (s.reg x).toNat then some ⟨.badKeyIndex, none, some (s.reg x)⟩ else none
  | .cls => none
  | .jp _ => none
  | .seImm _ _ => none
  | .sneImm _ _ => none
  | .seReg _ _ => none
  | .ldImm _ _ => none
  | .addImm _ _ => none
  | .ldReg _ _ => none
  | .orReg _ _ => none
  | .andReg _ _ => none
  | .xorReg _ _ => none
  | .addReg _ _ => none
  | .subReg _ _ => none
  | .shr _ _ => none
  | .subnReg _ _ => none
  | .shl _ _ => none
  | .sneReg _ _ => none
  | .ldI _ => none
  | .jpV0 _ => none
  | .rnd _ _ => none
  | .ldVxDT _ => none
  | .ldVxK _ => none
  | .ldDTVx _ => none
  | .ldSTVx _ => none
  | .addI _ => none
  | .ldF _ => none

/-! ## Encodings and fetching, as claims speak of them -/

/-- Every word with these fixed bits decodes to the instruction `f` makes of its fields (30_encoding R94). -/
def encodedBy (mask pattern : Word) (f : Word → Instr) : Prop :=
  ∀ op : Word, op &&& mask = pattern → decode op = .instr (f op)

/-- The word at an address, high byte first (20_memory R66). -/
def wordAt (m : Memory) (a : Nat) : Word := bigEndian (m.read a) (m.read (a + 1))

/-- The next tick takes steps: run is Running, no key is awaited, and the tick brings neither control signal
(40_cycle R120, R130). -/
abbrev State.stepsNext (s : State) : Prop :=
  s.run = .running ∧ s.awaitKey = none ∧ (nextInput s).quit = false ∧ (nextInput s).pauseToggle = false

/-- The next tick executes the instruction `i`: it takes steps, and the word at PC is inside memory and decodes to `i`. -/
abbrev State.fetches (s : State) (i : Instr) : Prop :=
  s.stepsNext ∧ s.pc.toNat ≤ 0xFFE ∧ decode (wordAt s.mem s.pc.toNat) = .instr i

/-! ## Run-state transitions -/

/-- The transitions of `run` in one tick with the given control signals, and no others (40_cycle R140); `run` may also stay
as it is where nothing forces a change. -/
def runMayBecome (quit pauseToggle : Bool) : RunState → RunState → Prop
  | .running, .running => quit = false ∧ pauseToggle = false
  | .running, .paused => quit = false ∧ pauseToggle = true
  | .running, .stopped => quit = true
  | .running, .faulted => quit = false ∧ pauseToggle = false
  | .paused, .running => quit = false ∧ pauseToggle = true
  | .paused, .paused => quit = false ∧ pauseToggle = false
  | .paused, .stopped => quit = true
  | .paused, .faulted => quit = false ∧ pauseToggle = true
  | .stopped, .stopped => True
  | .stopped, _ => False
  | .faulted, .faulted => True
  | .faulted, _ => False

/-! ## Invariants -/

/-- PC is at most 0x10FE and every saved return address is at most 0x1000 (10_state R26; 41_control R162). -/
abbrev State.pcBounded (s : State) : Prop := s.pc.toNat ≤ 0x10FE ∧ ∀ j : Fin 12, s.stack[j].toNat ≤ 0x1000

/-- There is a fault record exactly when the machine is Faulted (10_state R41; 40_cycle R127). -/
abbrev State.faultRecorded (s : State) : Prop := s.run = .faulted ↔ s.fault.isSome = true

end Sys2Proof.Machine
end

