-- ==== Sys2Proof/Certificates/Slice0/Obligations.lean ====
section
/-! DEFINITION. The statements for the provers, each made from the rules of spec/ it names. An instruction's meaning is
`exec i s` on the state `s` before the step, with PC = a, so `s.pc` is the instruction's own address. "The spec's decision Dn"
marks a clause that 92_eei_decisions.md says the spec chose. -/

open Sys2Proof Sys2Proof.Machine

/-! ## Reset and load -/

/-- Load with any INIT_RAM and a program of legal length gives the reset values of 10_state R43, among them the spec's decisions
D12, D13 and D14, and a memory that holds the font, the program from 0x200 and INIT_RAM elsewhere. -/
def Obligations.LoadGivesResetValuesAndProgram : Prop :=
  ∀ (initRam : Nat → Byte) (rom : List Byte), rom.length ≤ 3584 →
    ∃ t, load initRam (some rom) = .next t ∧
      (∀ x, t.reg x = 0) ∧ t.i = 0 ∧ t.pc = 0x200 ∧ t.sp = 0 ∧ (∀ j : Fin 12, t.stack[j] = 0) ∧ t.dt = 0 ∧ t.st = 0 ∧
      (∀ x y, cell t.fb x y = false) ∧ t.run = .running ∧ t.awaitKey = none ∧ t.kprev = 0 ∧ t.fault = none ∧ t.mem.wf ∧
      ∀ a, a ≤ 0xFFF → t.mem.read a =
        if a < 0x050 then Config.font.getD a 0
        else if 0x200 ≤ a ∧ a - 0x200 < rom.length then rom.getD (a - 0x200) 0
        else initRam a

/-- 70_reset R404: the two load errors leave no machine, a program loads exactly when it is readable and at most 3584 bytes
long, and the failure is never a run-time one. -/
def Obligations.LoadFailsExactlyOnUnreadableOrTooLong : Prop :=
  (∀ initRam, load initRam none = .fault .romUnreadable) ∧
  (∀ initRam (rom : List Byte), load initRam (some rom) = .fault .romTooLarge ↔ 3584 < rom.length) ∧
  (∀ initRam (rom : List Byte), (∃ t, load initRam (some rom) = .next t) ↔ rom.length ≤ 3584) ∧
  ∀ s r, step s ≠ .fault r

/-- The reset state is the load of an empty program with the model's own INIT_RAM of 0x00 (DESIGN CHOICE, log 2). -/
def Obligations.ResetIsLoadOfEmptyProgram : Prop :=
  load Config.initRam (some []) = .next State.reset

/-- 70_reset R401: from reset with any memory, the run state is Running and the first tick's step is of the instruction at 0x200
(with no input pending and one step a tick, log 3, log 4). -/
def Obligations.FirstStepFetchesAtEntryPoint : Prop :=
  State.reset.pc = 0x200 ∧ State.reset.run = .running ∧
  ∀ (m : Memory) (i : Instr), decode (wordAt m 0x200) = .instr i →
    ∃ t, exec i (State.reset.setMem m) = .next t ∧
      step (State.reset.setMem m) = .next (if t.run = .faulted then t else endTick t)

/-! ## Encoding -/

/-- Every instruction, with every operand, is what the decoder reads from its encoding, as a word and as bytes in memory order
(30_encoding R91, R93; 20_memory R66; the encoder is the model's own, log 17). -/
def Obligations.DecodeOfEncodeIsTheInstruction : Prop :=
  (∀ i : Instr, decode (encode i) = .instr i) ∧
  ∀ (i : Instr) (rest : List Byte), decodeBytes (encodeBytes i ++ rest) = .ok (i, rest)

/-- The other direction: an instruction the decoder reads from a word encodes as that word, so no bit is dropped and the opcode
of a fault record is the fetched word (60_exceptions R368; the model's deduction, log 17). -/
def Obligations.DecodedWordEncodesBack : Prop :=
  ∀ (op : Word) (i : Instr), decode op = .instr i → encode i = op

/-- 30_encoding R103: a word is one of the 34 instructions, by the mask and match table of R94, or it is unimplemented and
reported as that word. -/
def Obligations.WordIsInstructionOrUnimplemented : Prop :=
  OpcodeRow.all.length = 34 ∧
  ∀ op : Word,
    (wellFormedWord op = true → ∃ i, decode op = .instr i) ∧
    (wellFormedWord op = false → decode op = .unimplemented op)

/-- At most one row of the opcode map matches any word (30_encoding R94, which derives it from its masks). -/
def Obligations.NoWordMatchesTwoRows : Prop :=
  ∀ op : Word, ∀ r ∈ OpcodeRow.all, ∀ r' ∈ OpcodeRow.all, r.selects op = true → r'.selects op = true → r = r'

/-- 30_encoding R95 to R99: which words of the sub-dispatched families are instructions; the others are unimplemented. -/
def Obligations.SubDispatchedFamilies : Prop :=
  ∀ op : Word,
    (op.toNat / 4096 = 0x0 → ((∃ i, decode op = .instr i) ↔ op.toNat = 0x00E0 ∨ op.toNat = 0x00EE)) ∧
    (op.toNat / 4096 = 0x5 ∨ op.toNat / 4096 = 0x9 → ((∃ i, decode op = .instr i) ↔ op.toNat % 16 = 0)) ∧
    (op.toNat / 4096 = 0x8 →
      ((∃ i, decode op = .instr i) ↔ op.toNat % 16 ∈ [0, 1, 2, 3, 4, 5, 6, 7, 0xE])) ∧
    (op.toNat / 4096 = 0xE → ((∃ i, decode op = .instr i) ↔ op.toNat % 256 ∈ [0x9E, 0xA1])) ∧
    (op.toNat / 4096 = 0xF →
      ((∃ i, decode op = .instr i) ↔
        op.toNat % 256 ∈ [0x07, 0x0A, 0x15, 0x18, 0x1E, 0x29, 0x33, 0x55, 0x65])) ∧
    ((¬ ∃ i, decode op = .instr i) → decode op = .unimplemented op)

/-- Nine words of eight families, written out from the patterns of 30_encoding R93 and the programs of 95_test_vectors, decode to
what they stand for, and two words outside the opcode map are unimplemented (30_encoding R101). -/
def Obligations.SampleWordsDecode : Prop :=
  decode 0x00E0 = .instr .cls ∧ decode 0x1204 = .instr (.jp 0x204) ∧ decode 0x6005 = .instr (.ldImm 0 0x05) ∧
  decode 0x8014 = .instr (.addReg 0 1) ∧ decode 0xA2F0 = .instr (.ldI 0x2F0) ∧ decode 0xD015 = .instr (.drw 0 1 5) ∧
  decode 0xE29E = .instr (.skp 2) ∧ decode 0xF30A = .instr (.ldVxK 3) ∧ decode 0xF155 = .instr (.ldMemStore 1) ∧
  decode 0x5121 = .unimplemented 0x5121 ∧ decode 0x0123 = .unimplemented 0x0123

/-! ## Fetch, faults and the step -/

/-- 20_memory R66: the fetched opcode is mem[a] * 256 + mem[a + 1], in every state that can fetch. -/
def Obligations.FetchIsBigEndian : Prop :=
  ∀ s : State, s.pc.toNat ≤ 0xFFE →
    ∃ op, fetch s = .ok op ∧ op.toNat = (s.mem.read s.pc.toNat).toNat * 256 + (s.mem.read (s.pc.toNat + 1)).toNat

/-- A tick whose fetch passes the end of memory takes a MemoryOutOfRange fault that names PC, or PC + 1 when PC = 0xFFF, records no
opcode, and changes nothing but `run`, the record and the latched inputs (the spec's decisions D6, D7, D16, D22). -/
def Obligations.FetchBeyondMemoryFaults : Prop :=
  ∀ s : State, s.stepsNext → 0xFFE < s.pc.toNat →
    step s = .next { latch s with
      run := .faulted
      fault := some ⟨.memoryOutOfRange, s.pc, none,
        some (if s.pc.toNat = 0xFFF then 0x1000 else s.pc.toNat), none⟩ }

/-- A tick that fetches a word outside the opcode map halts with an UnimplementedOpcode fault and changes nothing else (the
spec's decisions D5, D6, D22). -/
def Obligations.UnimplementedWordFaults : Prop :=
  ∀ s : State, s.stepsNext → s.pc.toNat ≤ 0xFFE → wellFormedWord (wordAt s.mem s.pc.toNat) = false →
    step s = .next { latch s with
      run := .faulted
      fault := some ⟨.unimplementedOpcode, s.pc, some (wordAt s.mem s.pc.toNat), none, none⟩ }

/-- An instruction faults exactly under the conditions of 60_exceptions R360 and R369 (the spec's decisions D7, D8, D9). Where it
does, the state is the one before the step but for `run` and the record (decision D6); where it does not, it completes and
touches neither. -/
def Obligations.InstructionFaultsExactlyWhenSpecified : Prop :=
  ∀ (i : Instr) (s : State),
    (trapOf i s = none → ∃ t, exec i s = .next t ∧ t.run = s.run ∧ t.fault = s.fault) ∧
    ∀ tr, trapOf i s = some tr →
      exec i s = .next { s with
        run := .faulted
        fault := some ⟨tr.cause, s.pc, some (encode i), tr.address, tr.value⟩ }

/-- A tick that steps, at a PC whose word decodes to `i`, is `exec i` on the state with the inputs latched, followed, unless it
faulted, by the end of the tick (40_cycle R121, R130; log 10, log 11). -/
def Obligations.StepRunsTheDecodedInstruction : Prop :=
  ∀ (s : State) (i : Instr), s.fetches i →
    ∃ t, exec i (latch s) = .next t ∧ step s = .next (if t.run = .faulted then t else endTick t)

/-- The frame of every instruction, from the table of 10_state R23, which the spec derives from the instruction rules: an instruction
that completes changes no place but those it is said to write; every register, memory byte, framebuffer cell and stack slot is
counted by itself. -/
def Obligations.InstructionWritesOnlyItsPlaces : Prop :=
  ∀ (i : Instr) (s t : State), trapOf i s = none → exec i s = .next t → unchangedBut (mayWrite i s) s t

/-- A tick that changes the framebuffer is at a CLS or DRW, one that changes the stack or its depth at a CALL or RET, one that changes
I at LD_I, ADD_I or LD_F, and one that changes memory at LD_B or LD_mem_store (10_state R24, R28, R35; 20_memory R71). The tick is
that of `step`, of one instruction (log 3), so the word at PC before it is the one it runs. That the stack and the framebuffer lie
outside memory is the spec's decision D28. -/
def Obligations.OnlyNamedInstructionsChangeEachUnit : Prop :=
  ∀ s t : State, step s = .next t →
    (t.fb ≠ s.fb → ∃ i, decode (wordAt s.mem s.pc.toNat) = .instr i ∧ (i = .cls ∨ ∃ x y n, i = .drw x y n)) ∧
    (t.stack ≠ s.stack ∨ t.sp ≠ s.sp →
      ∃ i, decode (wordAt s.mem s.pc.toNat) = .instr i ∧ (i = .ret ∨ ∃ nnn, i = .call nnn)) ∧
    (t.i ≠ s.i →
      ∃ i, decode (wordAt s.mem s.pc.toNat) = .instr i ∧ ((∃ nnn, i = .ldI nnn) ∨ ∃ x, i = .addI x ∨ i = .ldF x)) ∧
    (t.mem ≠ s.mem →
      ∃ i, decode (wordAt s.mem s.pc.toNat) = .instr i ∧ ∃ x, i = .ldB x ∨ i = .ldMemStore x)

/-- Every tick of every number of steps gives a next state: nothing in the machine stops the host (60_exceptions R371; log 9). -/
def Obligations.EveryTickGivesNextState : Prop :=
  ∀ (n : Nat) (s : State), ∃ t, tick n s = .next t

/-! ## Ticks and run states -/

/-- 40_cycle R141: once Stopped, no tick changes any state. -/
def Obligations.StoppedIsTerminal : Prop :=
  ∀ (n : Nat) (s : State), s.run = .stopped → tick n s = .next s

/-- Once Faulted, no tick changes any state, whatever inputs come (40_cycle R142, the spec's decision D5). -/
def Obligations.FaultedIsTerminal : Prop :=
  ∀ (n : Nat) (s : State), s.run = .faulted → tick n s = .next s

/-- The quit input stops a Running or Paused machine before anything else of the tick, over a pause toggle and a key wait (40_cycle
R132, the spec's decision D4). -/
def Obligations.QuitStopsBeforeAnythingElse : Prop :=
  ∀ (n : Nat) (s : State), s.run = .running ∨ s.run = .paused → (nextInput s).quit = true →
    tick n s = .next { latch s with run := .stopped }

/-- A tick that leaves the machine Paused changes nothing but the latched inputs and, when it came from Running, `run` (40_cycle R133,
R134, the spec's decisions D3, D12, D25). -/
def Obligations.PausedTickChangesNothing : Prop :=
  ∀ (n : Nat) (s : State), (nextInput s).quit = false →
    (s.run = .paused ∧ (nextInput s).pauseToggle = false) ∨ (s.run = .running ∧ (nextInput s).pauseToggle = true) →
    ∃ t, tick n s = .next t ∧ t.run = .paused ∧ t.keypad = (nextInput s).keys ∧ t.inputs = s.inputs.tail ∧
      unchangedBut (fun p => p = .run ∨ p = .keypad ∨ p = .inputs) s t

/-- A tick that resumes a Paused machine does what that tick would do in a Running one: the new value governs the same tick
(40_cycle R133, the spec's decision D3). -/
def Obligations.ResumingTickRuns : Prop :=
  ∀ (n : Nat) (s : State), s.run = .paused → (nextInput s).quit = false → (nextInput s).pauseToggle = true →
    tick n s = tick n { s with
      run := .running
      inputs := ⟨(nextInput s).keys, false, false⟩ :: s.inputs.tail }

/-- In one tick `run` makes only the transitions of 40_cycle R140 (the spec's decisions D4, D5). -/
def Obligations.RunStateTransitions : Prop :=
  ∀ (n : Nat) (s t : State), tick n s = .next t →
    runMayBecome (nextInput s).quit (nextInput s).pauseToggle s.run t.run

/-- A Running tick that awaits a key fetches nothing; with no press edge the wait goes on, with one some key that has an edge is
stored, by a free choice among them, and the wait ends; the timers decay and Kprev is updated either way (45_timers_keys R330 to
R332, the spec's decisions D11, D12). -/
def Obligations.WaitingTickStoresAnEdgeKey : Prop :=
  ∀ (n : Nat) (s : State) (x : RegIdx),
    s.run = .running → s.awaitKey = some x → (nextInput s).quit = false → (nextInput s).pauseToggle = false →
    ∃ t, tick n s = .next t ∧ t.dt.toNat = s.dt.toNat - 1 ∧ t.st.toNat = s.st.toNat - 1 ∧
      t.kprev = (nextInput s).keys ∧ t.keypad = (nextInput s).keys ∧ t.inputs = s.inputs.tail ∧
      ((∀ k : Key, ¬ (pressed (nextInput s).keys k = true ∧ pressed s.kprev k = false)) →
        t.awaitKey = some x ∧ t.reg x = s.reg x) ∧
      (∀ k : Key, pressed (nextInput s).keys k = true → pressed s.kprev k = false →
        t.awaitKey = none ∧
          ∃ c : Key, pressed (nextInput s).keys c = true ∧ pressed s.kprev c = false ∧ (t.reg x).toNat = c.val) ∧
      unchangedBut (fun p => p = .reg x ∨ p = .awaitKey ∨ p = .dt ∨ p = .st ∨ p = .kprev ∨ p = .keypad ∨ p = .inputs ∨
        p = .draws) s t

/-- 45_timers_keys R340: both timers go down by one, floor 0, exactly once at the end of every Running tick that does not fault,
whatever steps ran in it and while a key is awaited too, and never in a Paused, Stopped or Faulted tick (that a tick that faults
does not decay is the spec's decision D22). -/
def Obligations.TimersDecayOncePerRunningTick : Prop :=
  (∀ (n : Nat) (s u : State), s.stepsNext → runBatch n (latch s) = .next u → u.run ≠ .faulted →
    ∃ t, tick n s = .next t ∧ t.dt.toNat = u.dt.toNat - 1 ∧ t.st.toNat = u.st.toNat - 1) ∧
  (∀ (n : Nat) (s u : State), s.stepsNext → runBatch n (latch s) = .next u → u.run = .faulted → tick n s = .next u) ∧
  (∀ (n : Nat) (s t : State), s.run = .running → s.awaitKey.isSome = true → (nextInput s).quit = false →
    (nextInput s).pauseToggle = false → tick n s = .next t →
    t.dt.toNat = s.dt.toNat - 1 ∧ t.st.toNat = s.st.toNat - 1) ∧
  ∀ (n : Nat) (s t : State), tick n s = .next t → t.run = .paused ∨ t.run = .stopped ∨ s.run = .faulted →
    t.dt = s.dt ∧ t.st = s.st

/-- Kprev is the snapshot of the latest Running tick that did not fault: a tick that ends Running sets it to its own snapshot, every
other tick keeps it (40_cycle R134, R138, R139, the spec's decisions D12, D22). -/
def Obligations.KprevIsLatestRunningSnapshot : Prop :=
  ∀ (n : Nat) (s t : State), tick n s = .next t →
    (t.run = .running → t.kprev = (nextInput s).keys) ∧ (t.run ≠ .running → t.kprev = s.kprev)

/-! ## Invariants that every step keeps -/

/-- Every step keeps memory in its canonical form: addresses strictly rising, nothing listed that an unlisted address would read as,
nothing listed in the font region or outside memory. The form is the model's own, so the statement is derived; that no store reaches
the font region is the spec's decision D8. -/
def Obligations.MemoryStaysCanonical : Prop :=
  ∀ s t : State, s.mem.wf → step s = .next t → t.mem.wf

/-- Every step keeps PC at most 0x10FE and every saved return address at most 0x1000, so the 16-bit PC never wraps. The spec
derives the bound of PC (10_state R26); that a target is not checked when it is written is its decision D29. -/
def Obligations.PcAndReturnAddressesStayBounded : Prop :=
  ∀ s t : State, s.pcBounded → step s = .next t → t.pcBounded

/-- Every step keeps a fault record present exactly when the machine is Faulted (10_state R41; 40_cycle R127, R142; the spec's
decisions D5 and D7). -/
def Obligations.FaultRecordExactlyWhenFaulted : Prop :=
  ∀ s t : State, s.faultRecorded → step s = .next t → t.faultRecorded

/-- The reset state meets the three invariants; its SP, stack and fault record are the spec's decision D13 (log 6). -/
def Obligations.ResetMeetsTheInvariants : Prop :=
  State.reset.mem.wf ∧ State.reset.pcBounded ∧ State.reset.faultRecorded

/-- 70_reset R402: load writes the font into 0x000 to 0x04F, no step changes a byte there, in any state, and a store there is a
FontRegionWrite fault (the spec's decision D8; the bytes themselves are not in the source, decision D15, log 1). -/
def Obligations.FontIsNeverMutated : Prop :=
  (∀ (initRam : Nat → Byte) (rom : List Byte) (t : State), load initRam (some rom) = .next t →
    ∀ a, a < 0x050 → t.mem.read a = Config.font.getD a 0) ∧
  (∀ s t : State, step s = .next t → ∀ a, a < 0x050 → t.mem.read a = s.mem.read a) ∧
  ∀ (m : Memory) (a : Nat) (v : Byte), a < 0x050 → memWrite m a v = .error ⟨.fontRegionWrite, some a, none⟩

/-! ## Control transfer -/

/-- 41_control R162, RET: the depth goes down by one and PC is the slot it then names; with an empty stack it is a StackUnderflow
fault that changes nothing else (the spec's decisions D5, D6, D7). -/
def Obligations.RetPopsReturnAddress : Prop :=
  decode 0x00EE = .instr .ret ∧
  ∀ s : State,
    (∀ d : Fin 12, s.sp.val = d.val + 1 →
      ∃ t, exec .ret s = .next t ∧ t.sp.val = d.val ∧ t.pc = s.stack[d] ∧
        unchangedBut (fun p => p = .pc ∨ p = .sp) s t) ∧
    (s.sp = 0 → exec .ret s = .next { s with
      run := .faulted
      fault := some ⟨.stackUnderflow, s.pc, some 0x00EE, none, none⟩ })

/-- 41_control R163, JP. -/
def Obligations.JpSetsPc : Prop :=
  encodedBy 0xF000 0x1000 (fun op => .jp (fieldNNN op)) ∧
  ∀ (nnn : Addr12) (s : State), ∃ t, exec (.jp nnn) s = .next t ∧ t.pc.toNat = nnn.toNat ∧
    unchangedBut (fun p => p = .pc) s t

/-- 41_control R164, CALL: slot S[SP] gets the address after the CALL, the depth goes up by one and PC is NNN; with twelve return
addresses held it is a StackOverflow fault that changes nothing else (the spec's decisions D5, D6, D7). -/
def Obligations.CallPushesReturnAddress : Prop :=
  encodedBy 0xF000 0x2000 (fun op => .call (fieldNNN op)) ∧
  ∀ (nnn : Addr12) (s : State),
    (∀ d : Fin 12, s.sp.val = d.val →
      ∃ t, exec (.call nnn) s = .next t ∧ t.sp.val = d.val + 1 ∧ t.stack[d] = s.pc + 2 ∧ t.pc.toNat = nnn.toNat ∧
        unchangedBut (fun p => p = .pc ∨ p = .sp ∨ p = .slot d) s t) ∧
    (s.sp = 12 → exec (.call nnn) s = .next { s with
      run := .faulted
      fault := some ⟨.stackOverflow, s.pc, some (encode (.call nnn)), none, none⟩ })

/-- 41_control R165 and R166, SE and SNE with an immediate: PC is a + 4 when the condition holds, else a + 2. -/
def Obligations.SkipsOnImmediate : Prop :=
  encodedBy 0xF000 0x3000 (fun op => .seImm (fieldX op) (fieldNN op)) ∧
  encodedBy 0xF000 0x4000 (fun op => .sneImm (fieldX op) (fieldNN op)) ∧
  ∀ (x : RegIdx) (nn : Byte) (s : State),
    (∃ t, exec (.seImm x nn) s = .next t ∧ t.pc = (if (s.reg x).toNat = nn.toNat then s.pc + 4 else s.pc + 2) ∧
      unchangedBut (fun p => p = .pc) s t) ∧
    (∃ t, exec (.sneImm x nn) s = .next t ∧ t.pc = (if (s.reg x).toNat = nn.toNat then s.pc + 2 else s.pc + 4) ∧
      unchangedBut (fun p => p = .pc) s t)

/-- 41_control R167 and R168, SE and SNE on two registers. -/
def Obligations.SkipsOnRegisters : Prop :=
  encodedBy 0xF00F 0x5000 (fun op => .seReg (fieldX op) (fieldY op)) ∧
  encodedBy 0xF00F 0x9000 (fun op => .sneReg (fieldX op) (fieldY op)) ∧
  (∀ op : Word, op.toNat / 4096 = 0x5 ∨ op.toNat / 4096 = 0x9 → op.toNat % 16 ≠ 0 → decode op = .unimplemented op) ∧
  ∀ (x y : RegIdx) (s : State),
    (∃ t, exec (.seReg x y) s = .next t ∧
      t.pc = (if (s.reg x).toNat = (s.reg y).toNat then s.pc + 4 else s.pc + 2) ∧
      unchangedBut (fun p => p = .pc) s t) ∧
    (∃ t, exec (.sneReg x y) s = .next t ∧
      t.pc = (if (s.reg x).toNat = (s.reg y).toNat then s.pc + 2 else s.pc + 4) ∧
      unchangedBut (fun p => p = .pc) s t)

/-- 41_control R169, JP V0: the target is NNN + V[0], neither wrapped nor masked, and the jump itself never faults (the spec's
decision D29). -/
def Obligations.JpV0AddsV0 : Prop :=
  encodedBy 0xF000 0xB000 (fun op => .jpV0 (fieldNNN op)) ∧
  ∀ (nnn : Addr12) (s : State), ∃ t, exec (.jpV0 nnn) s = .next t ∧ t.pc.toNat = nnn.toNat + (s.reg 0).toNat ∧
    unchangedBut (fun p => p = .pc) s t

/-- The law the spec derives in 41_control R170: a RET that finds the depth a CALL left and the slot it wrote returns to the instruction after the
CALL, at the depth before it, whatever else happened between. -/
def Obligations.ReturnUndoesCall : Prop :=
  ∀ (nnn : Addr12) (s t u : State) (d : Fin 12), s.sp.val = d.val → exec (.call nnn) s = .next t →
    u.sp = t.sp → u.stack[d] = t.stack[d] →
    ∃ r, exec .ret u = .next r ∧ r.pc = s.pc + 2 ∧ r.sp = s.sp

/-! ## Register file and ALU -/

/-- 42_alu R201 and R203: load immediate and copy register. -/
def Obligations.LoadImmediateAndCopy : Prop :=
  encodedBy 0xF000 0x6000 (fun op => .ldImm (fieldX op) (fieldNN op)) ∧
  encodedBy 0xF00F 0x8000 (fun op => .ldReg (fieldX op) (fieldY op)) ∧
  (∀ (x : RegIdx) (nn : Byte) (s : State), ∃ t, exec (.ldImm x nn) s = .next t ∧ t.reg x = nn ∧ t.pc = s.pc + 2 ∧
    unchangedBut (fun p => p = .pc ∨ p = .reg x) s t) ∧
  ∀ (x y : RegIdx) (s : State), ∃ t, exec (.ldReg x y) s = .next t ∧ t.reg x = s.reg y ∧ t.pc = s.pc + 2 ∧
    unchangedBut (fun p => p = .pc ∨ p = .reg x) s t

/-- 42_alu R202: add immediate, mod 256, with no flag: VF is unchanged unless it is the destination. -/
def Obligations.AddImmediateSetsNoFlag : Prop :=
  encodedBy 0xF000 0x7000 (fun op => .addImm (fieldX op) (fieldNN op)) ∧
  ∀ (x : RegIdx) (nn : Byte) (s : State), ∃ t, exec (.addImm x nn) s = .next t ∧
    (t.reg x).toNat = ((s.reg x).toNat + nn.toNat) % 256 ∧ t.pc = s.pc + 2 ∧
    unchangedBut (fun p => p = .pc ∨ p = .reg x) s t

/-- 42_alu R204, R205 and R206: OR, AND and XOR bit by bit, with VF neither set nor cleared. -/
def Obligations.BitwiseOperations : Prop :=
  encodedBy 0xF00F 0x8001 (fun op => .orReg (fieldX op) (fieldY op)) ∧
  encodedBy 0xF00F 0x8002 (fun op => .andReg (fieldX op) (fieldY op)) ∧
  encodedBy 0xF00F 0x8003 (fun op => .xorReg (fieldX op) (fieldY op)) ∧
  ∀ (x y : RegIdx) (s : State),
    (∃ t, exec (.orReg x y) s = .next t ∧
      (∀ k, (t.reg x).getLsbD k = ((s.reg x).getLsbD k || (s.reg y).getLsbD k)) ∧ t.pc = s.pc + 2 ∧
      unchangedBut (fun p => p = .pc ∨ p = .reg x) s t) ∧
    (∃ t, exec (.andReg x y) s = .next t ∧
      (∀ k, (t.reg x).getLsbD k = ((s.reg x).getLsbD k && (s.reg y).getLsbD k)) ∧ t.pc = s.pc + 2 ∧
      unchangedBut (fun p => p = .pc ∨ p = .reg x) s t) ∧
    (∃ t, exec (.xorReg x y) s = .next t ∧
      (∀ k, (t.reg x).getLsbD k = ((s.reg x).getLsbD k ^^ (s.reg y).getLsbD k)) ∧ t.pc = s.pc + 2 ∧
      unchangedBut (fun p => p = .pc ∨ p = .reg x) s t)

/-- 42_alu R207: ADD with the carry in VF; when the destination is VF the flag is what it holds. -/
def Obligations.AddRegistersWithCarry : Prop :=
  encodedBy 0xF00F 0x8004 (fun op => .addReg (fieldX op) (fieldY op)) ∧
  ∀ (x y : RegIdx) (s : State), ∃ t, exec (.addReg x y) s = .next t ∧
    (x ≠ VF → (t.reg x).toNat = ((s.reg x).toNat + (s.reg y).toNat) % 256) ∧
    (t.reg VF).toNat = (if (s.reg x).toNat + (s.reg y).toNat > 255 then 1 else 0) ∧ t.pc = s.pc + 2 ∧
    unchangedBut (fun p => p = .pc ∨ p = .reg x ∨ p = .reg VF) s t

/-- 42_alu R208: SUB, mod 256, with not-borrow in VF; when the destination is VF the flag is what it holds. -/
def Obligations.SubtractWithNotBorrow : Prop :=
  encodedBy 0xF00F 0x8005 (fun op => .subReg (fieldX op) (fieldY op)) ∧
  ∀ (x y : RegIdx) (s : State), ∃ t, exec (.subReg x y) s = .next t ∧
    (x ≠ VF → ((t.reg x).toNat : Int) = (((s.reg x).toNat : Int) - (s.reg y).toNat) % 256) ∧
    (t.reg VF).toNat = (if (s.reg x).toNat ≥ (s.reg y).toNat then 1 else 0) ∧ t.pc = s.pc + 2 ∧
    unchangedBut (fun p => p = .pc ∨ p = .reg x ∨ p = .reg VF) s t

/-- 42_alu R210: SUBN; its flag compares the operands from before the subtraction and wins over the result in VF (the spec's
decision D10). -/
def Obligations.ReverseSubtractWithNotBorrow : Prop :=
  encodedBy 0xF00F 0x8007 (fun op => .subnReg (fieldX op) (fieldY op)) ∧
  ∀ (x y : RegIdx) (s : State), ∃ t, exec (.subnReg x y) s = .next t ∧
    (x ≠ VF → ((t.reg x).toNat : Int) = (((s.reg y).toNat : Int) - (s.reg x).toNat) % 256) ∧
    (t.reg VF).toNat = (if (s.reg y).toNat ≥ (s.reg x).toNat then 1 else 0) ∧ t.pc = s.pc + 2 ∧
    unchangedBut (fun p => p = .pc ∨ p = .reg x ∨ p = .reg VF) s t

/-- 42_alu R209 and R211: SHR and SHL of V[X] by one, for every Y, with the bit shifted out in VF, which wins over the result
when X is 0xF (the spec's decision D10). -/
def Obligations.ShiftsMoveOneBitIntoVF : Prop :=
  encodedBy 0xF00F 0x8006 (fun op => .shr (fieldX op) (fieldY op)) ∧
  encodedBy 0xF00F 0x800E (fun op => .shl (fieldX op) (fieldY op)) ∧
  ∀ (x y : RegIdx) (s : State),
    (∃ t, exec (.shr x y) s = .next t ∧ (x ≠ VF → (t.reg x).toNat = (s.reg x).toNat / 2) ∧
      (t.reg VF).toNat = (s.reg x).toNat % 2 ∧ t.pc = s.pc + 2 ∧
      unchangedBut (fun p => p = .pc ∨ p = .reg x ∨ p = .reg VF) s t) ∧
    (∃ t, exec (.shl x y) s = .next t ∧ (x ≠ VF → (t.reg x).toNat = (s.reg x).toNat * 2 % 256) ∧
      (t.reg VF).toNat = (s.reg x).toNat / 128 ∧ t.pc = s.pc + 2 ∧
      unchangedBut (fun p => p = .pc ∨ p = .reg x ∨ p = .reg VF) s t)

/-- 42_alu R212: RND gives some byte AND NN, the byte being the free value of this draw (the spec's decision D19), the next draw being
another; no bit that NN clears is ever set. -/
def Obligations.RandomByteIsMasked : Prop :=
  encodedBy 0xF000 0xC000 (fun op => .rnd (fieldX op) (fieldNN op)) ∧
  ∀ (x : RegIdx) (nn : Byte) (s : State), ∃ t, exec (.rnd x nn) s = .next t ∧
    (∀ k, (t.reg x).getLsbD k = ((Config.drawByte s.draws).getLsbD k && nn.getLsbD k)) ∧
    t.draws = s.draws + 1 ∧ t.pc = s.pc + 2 ∧
    unchangedBut (fun p => p = .pc ∨ p = .reg x ∨ p = .draws) s t

/-! ## Index register and memory -/

/-- 43_index_memory R251 and R253: LD I and LD F. -/
def Obligations.LoadIndexAndGlyphAddress : Prop :=
  encodedBy 0xF000 0xA000 (fun op => .ldI (fieldNNN op)) ∧
  encodedBy 0xF0FF 0xF029 (fun op => .ldF (fieldX op)) ∧
  (∀ (nnn : Addr12) (s : State), ∃ t, exec (.ldI nnn) s = .next t ∧ t.i.toNat = nnn.toNat ∧ t.pc = s.pc + 2 ∧
    unchangedBut (fun p => p = .pc ∨ p = .index) s t) ∧
  ∀ (x : RegIdx) (s : State), ∃ t, exec (.ldF x) s = .next t ∧ t.i.toNat = 5 * ((s.reg x).toNat % 16) ∧
    t.pc = s.pc + 2 ∧ unchangedBut (fun p => p = .pc ∨ p = .index) s t

/-- 43_index_memory R252: ADD I, mod 65536, with VF unchanged and no fault (the spec's decision D18). -/
def Obligations.AddIndexWrapsAtSixteenBits : Prop :=
  encodedBy 0xF0FF 0xF01E (fun op => .addI (fieldX op)) ∧
  ∀ (x : RegIdx) (s : State), ∃ t, exec (.addI x) s = .next t ∧
    t.i.toNat = (s.i.toNat + (s.reg x).toNat) % 65536 ∧ t.pc = s.pc + 2 ∧
    unchangedBut (fun p => p = .pc ∨ p = .index) s t

/-- 43_index_memory R254: LD B stores the three decimal digits where the three bytes are writable (the spec's decision D8 makes the
font region not so), and every other byte of memory is as before. -/
def Obligations.BcdStoresDecimalDigits : Prop :=
  encodedBy 0xF0FF 0xF033 (fun op => .ldB (fieldX op)) ∧
  ∀ (x : RegIdx) (s : State), 0x050 ≤ s.i.toNat → s.i.toNat + 2 ≤ 0xFFF →
    ∃ t, exec (.ldB x) s = .next t ∧
      (t.mem.read (s.effAddr 0)).toNat = (s.reg x).toNat / 100 ∧
      (t.mem.read (s.effAddr 1)).toNat = (s.reg x).toNat / 10 % 10 ∧
      (t.mem.read (s.effAddr 2)).toNat = (s.reg x).toNat % 10 ∧ t.pc = s.pc + 2 ∧
      unchangedBut (fun p => p = .pc ∨ p = .mem (s.effAddr 0) ∨ p = .mem (s.effAddr 1) ∨ p = .mem (s.effAddr 2)) s t

/-- 43_index_memory R255: LD [I] stores V[0] to V[X] from I up where all the bytes are writable (the spec's decision D8), leaves I, and
leaves every other byte of memory as before. -/
def Obligations.StoreRegistersAtI : Prop :=
  encodedBy 0xF0FF 0xF055 (fun op => .ldMemStore (fieldX op)) ∧
  ∀ (x : RegIdx) (s : State), 0x050 ≤ s.i.toNat → s.i.toNat + x.val ≤ 0xFFF →
    ∃ t, exec (.ldMemStore x) s = .next t ∧
      (∀ r : RegIdx, r.val ≤ x.val → t.mem.read (s.effAddr r.val) = s.reg r) ∧ t.pc = s.pc + 2 ∧
      unchangedBut (fun p => p = .pc ∨ ∃ k, k ≤ x.val ∧ p = .mem (s.effAddr k)) s t

/-- 43_index_memory R256: LD Vx, [I] loads V[0] to V[X] and leaves I; where I + X passes 0xFFF it faults at the lowest offending
address and loads nothing (the spec's decisions D6, D7, D17). -/
def Obligations.LoadRegistersFromI : Prop :=
  encodedBy 0xF0FF 0xF065 (fun op => .ldMemLoad (fieldX op)) ∧
  ∀ (x : RegIdx) (s : State),
    (s.i.toNat + x.val ≤ 0xFFF →
      ∃ t, exec (.ldMemLoad x) s = .next t ∧
        (∀ r : RegIdx, r.val ≤ x.val → t.reg r = s.mem.read (s.effAddr r.val)) ∧ t.pc = s.pc + 2 ∧
        unchangedBut (fun p => p = .pc ∨ ∃ r : RegIdx, r.val ≤ x.val ∧ p = .reg r) s t) ∧
    (0xFFF < s.i.toNat + x.val →
      exec (.ldMemLoad x) s = .next { s with
        run := .faulted
        fault := some ⟨.memoryOutOfRange, s.pc, some (encode (.ldMemLoad x)), some (max s.i.toNat 0x1000), none⟩ })

/-- Code may modify itself: two registers stored side by side by LD [I] are the word the next fetch of that address reads (20_memory
R75, 70_reset R411, the spec's decision D23). -/
def Obligations.StoredBytesAreFetched : Prop :=
  ∀ (x r q : RegIdx) (s t u : State), 0x050 ≤ s.i.toNat → s.i.toNat + x.val ≤ 0xFFF → q.val = r.val + 1 → q.val ≤ x.val →
    exec (.ldMemStore x) s = .next t → u.mem = t.mem → u.pc.toNat = s.effAddr r.val →
    ∃ op, fetch u = .ok op ∧ op.toNat = (s.reg r).toNat * 256 + (s.reg q).toNat

/-! ## Framebuffer -/

/-- 44_display R291: CLS unlights every cell and writes nothing but the framebuffer and PC (the frame is derived, 10_state R23). -/
def Obligations.ClsUnlightsEveryCell : Prop :=
  decode 0x00E0 = .instr .cls ∧
  ∀ s : State, ∃ t, exec .cls s = .next t ∧ (∀ x y, cell t.fb x y = false) ∧ t.pc = s.pc + 2 ∧
    unchangedBut (fun p => p = .pc ∨ ∃ x y, p = .cell x y) s t

/-- 44_display R292 and R293, cell by cell: DRW XORs into each cell the sprite bit that covers it under the wrap, and sets VF to 1
exactly when some covered cell was lit. It holds whenever the N bytes are inside memory, and for N = 0, which the spec derives to
draw nothing, wherever I points. That VF is written after the coordinates are read is the spec's decision D10. -/
def Obligations.DrawXorsSpriteWithCollision : Prop :=
  encodedBy 0xF000 0xD000 (fun op => .drw (fieldX op) (fieldY op) (fieldN op)) ∧
  ∀ (x y : RegIdx) (n : Nibble) (s : State), n.toNat = 0 ∨ s.i.toNat + n.toNat ≤ 0x1000 →
    let covers := fun (px : Col) (py : Row) =>
      let c := (px.val + 64 - (s.reg x).toNat % 64) % 64
      let r := (py.val + 32 - (s.reg y).toNat % 32) % 32
      decide (c < 8) && decide (r < n.toNat) && (s.mem.read (s.effAddr r)).getLsbD (7 - c)
    ∃ t, exec (.drw x y n) s = .next t ∧
      (∀ px py, cell t.fb px py = (cell s.fb px py ^^ covers px py)) ∧
      ((∃ px py, covers px py = true ∧ cell s.fb px py = true) → t.reg VF = 1) ∧
      ((¬ ∃ px py, covers px py = true ∧ cell s.fb px py = true) → t.reg VF = 0) ∧ t.pc = s.pc + 2 ∧
      unchangedBut (fun p => p = .pc ∨ p = .reg VF ∨ ∃ px py, p = .cell px py) s t

/-- What the spec derives in 44_display R294: the same sprite at the same position drawn a second time restores every cell; from an
all-unlit framebuffer the second draw sets VF to 1 exactly when the sprite has a set bit. -/
def Obligations.SecondDrawRestores : Prop :=
  ∀ (x y : RegIdx) (n : Nibble) (s t u v : State), n.toNat = 0 ∨ s.i.toNat + n.toNat ≤ 0x1000 →
    exec (.drw x y n) s = .next t →
    u.fb = t.fb → u.i = s.i → u.mem = s.mem → u.reg x = s.reg x → u.reg y = s.reg y →
    exec (.drw x y n) u = .next v →
    (∀ px py, cell v.fb px py = cell s.fb px py) ∧
    ((∀ px py, cell s.fb px py = false) →
      (v.reg VF = 1 ↔ ∃ r k, r < n.toNat ∧ k < 8 ∧ (s.mem.read (s.effAddr r)).getLsbD k = true))

/-! ## Keypad and timers -/

/-- 45_timers_keys R321 and R322: SKP and SKNP test the tick's snapshot for the key V[X], where V[X] is a key (the spec's decision D9
makes any other value a fault). -/
def Obligations.SkipsOnKeyLevel : Prop :=
  encodedBy 0xF0FF 0xE09E (fun op => .skp (fieldX op)) ∧
  encodedBy 0xF0FF 0xE0A1 (fun op => .sknp (fieldX op)) ∧
  ∀ (x : RegIdx) (s : State), (s.reg x).toNat ≤ 0xF →
    (∃ t, exec (.skp x) s = .next t ∧
      t.pc = (if s.keypad.getLsbD (s.reg x).toNat = true then s.pc + 4 else s.pc + 2) ∧
      unchangedBut (fun p => p = .pc) s t) ∧
    (∃ t, exec (.sknp x) s = .next t ∧
      t.pc = (if s.keypad.getLsbD (s.reg x).toNat = true then s.pc + 2 else s.pc + 4) ∧
      unchangedBut (fun p => p = .pc) s t)

/-- 45_timers_keys R323: LD Vx, DT. -/
def Obligations.ReadDelayTimer : Prop :=
  encodedBy 0xF0FF 0xF007 (fun op => .ldVxDT (fieldX op)) ∧
  ∀ (x : RegIdx) (s : State), ∃ t, exec (.ldVxDT x) s = .next t ∧ t.reg x = s.dt ∧ t.pc = s.pc + 2 ∧
    unchangedBut (fun p => p = .pc ∨ p = .reg x) s t

/-- 45_timers_keys R325 and R326: LD DT, Vx and LD ST, Vx, and the decay of the same tick applied to the new value; sound_on after the
tick of an LD ST is ST > 0, so that V[X] = 1 is never heard (it is sampled after the decay by the spec's decision D21). -/
def Obligations.SetTimersAndDecayInSameTick : Prop :=
  encodedBy 0xF0FF 0xF015 (fun op => .ldDTVx (fieldX op)) ∧
  encodedBy 0xF0FF 0xF018 (fun op => .ldSTVx (fieldX op)) ∧
  (∀ (x : RegIdx) (s : State),
    (∃ t, exec (.ldDTVx x) s = .next t ∧ t.dt = s.reg x ∧ t.pc = s.pc + 2 ∧
      unchangedBut (fun p => p = .pc ∨ p = .dt) s t) ∧
    (∃ t, exec (.ldSTVx x) s = .next t ∧ t.st = s.reg x ∧ t.pc = s.pc + 2 ∧
      unchangedBut (fun p => p = .pc ∨ p = .st) s t)) ∧
  ∀ (x : RegIdx) (s : State),
    (s.fetches (.ldDTVx x) → ∃ t, step s = .next t ∧ t.dt.toNat = (s.reg x).toNat - 1) ∧
    (s.fetches (.ldSTVx x) → ∃ t, step s = .next t ∧ t.st.toNat = (s.reg x).toNat - 1 ∧
      (t.outputs.soundOn = true ↔ 1 < (s.reg x).toNat))

/-- 45_timers_keys R324: LD Vx, K sets the wait for V[X], leaves V[X] and leaves PC at a + 2 (the spec's decision D11). -/
def Obligations.KeyWaitBegins : Prop :=
  encodedBy 0xF0FF 0xF00A (fun op => .ldVxK (fieldX op)) ∧
  ∀ (x : RegIdx) (s : State), ∃ t, exec (.ldVxK x) s = .next t ∧ t.awaitKey = some x ∧ t.pc = s.pc + 2 ∧
    unchangedBut (fun p => p = .pc ∨ p = .awaitKey) s t
end

