-- ==== Sys2Proof/Laws/Decode.lean ====
section
/-! SUPPORT. The fields of an assembled word, a word from its fields, and what a mask says of the fields: all that the
decoder and the encoder are made of (30_encoding R91, R94; 20_memory R66). -/

namespace Sys2Proof

theorem regBits_toNat (x : RegIdx) : (regBits x).toNat = x.val := by
  simp [regBits]

/-! ## Fields of an assembled word -/

@[simp] theorem familyOf_wordNNN (f : Nibble) (nnn : Addr12) : familyOf (wordNNN f nnn) = f := by
  unfold familyOf wordNNN
  ext i hi
  simp; grind

@[simp] theorem fieldNNN_wordNNN (f : Nibble) (nnn : Addr12) : fieldNNN (wordNNN f nnn) = nnn := by
  unfold fieldNNN wordNNN
  ext i hi
  simp; grind

@[simp] theorem familyOf_wordXNN (f : Nibble) (x : RegIdx) (nn : Byte) : familyOf (wordXNN f x nn) = f := by
  unfold familyOf wordXNN
  ext i hi
  simp; grind

@[simp] theorem fieldNN_wordXNN (f : Nibble) (x : RegIdx) (nn : Byte) : fieldNN (wordXNN f x nn) = nn := by
  unfold fieldNN wordXNN
  ext i hi
  simp; grind

theorem nibbleX_wordXNN (f : Nibble) (x : RegIdx) (nn : Byte) : (wordXNN f x nn).extractLsb' 8 4 = regBits x := by
  unfold wordXNN
  ext i hi
  simp; grind

@[simp] theorem fieldX_wordXNN (f : Nibble) (x : RegIdx) (nn : Byte) : fieldX (wordXNN f x nn) = x := by
  simp [fieldX, nibbleX_wordXNN, regBits_toNat]

@[simp] theorem familyOf_wordXYN (f : Nibble) (x y : RegIdx) (n : Nibble) : familyOf (wordXYN f x y n) = f := by
  unfold familyOf wordXYN
  ext i hi
  simp; grind

@[simp] theorem fieldN_wordXYN (f : Nibble) (x y : RegIdx) (n : Nibble) : fieldN (wordXYN f x y n) = n := by
  unfold fieldN wordXYN
  ext i hi
  simp; grind

theorem nibbleX_wordXYN (f : Nibble) (x y : RegIdx) (n : Nibble) :
    (wordXYN f x y n).extractLsb' 8 4 = regBits x := by
  unfold wordXYN
  ext i hi
  simp; grind

theorem nibbleY_wordXYN (f : Nibble) (x y : RegIdx) (n : Nibble) :
    (wordXYN f x y n).extractLsb' 4 4 = regBits y := by
  unfold wordXYN
  ext i hi
  simp; grind

@[simp] theorem fieldX_wordXYN (f : Nibble) (x y : RegIdx) (n : Nibble) : fieldX (wordXYN f x y n) = x := by
  simp [fieldX, nibbleX_wordXYN, regBits_toNat]

@[simp] theorem fieldY_wordXYN (f : Nibble) (x y : RegIdx) (n : Nibble) : fieldY (wordXYN f x y n) = y := by
  simp [fieldY, nibbleY_wordXYN, regBits_toNat]

/-! ## A word from its fields -/

theorem regBits_fieldX (op : Word) : regBits (fieldX op) = op.extractLsb' 8 4 := by
  apply BitVec.eq_of_toNat_eq
  simp [regBits, fieldX]

theorem regBits_fieldY (op : Word) : regBits (fieldY op) = op.extractLsb' 4 4 := by
  apply BitVec.eq_of_toNat_eq
  simp [regBits, fieldY]

theorem wordNNN_fields (op : Word) : wordNNN (familyOf op) (fieldNNN op) = op := by
  unfold wordNNN familyOf fieldNNN
  ext i hi
  simp; grind

theorem wordXNN_fields (op : Word) : wordXNN (familyOf op) (fieldX op) (fieldNN op) = op := by
  unfold wordXNN familyOf fieldNN
  rw [regBits_fieldX]
  ext i hi
  simp; grind

theorem wordXYN_fields (op : Word) : wordXYN (familyOf op) (fieldX op) (fieldY op) (fieldN op) = op := by
  unfold wordXYN familyOf fieldN
  rw [regBits_fieldX, regBits_fieldY]
  ext i hi
  simp; grind

/-! ## What a mask keeps of a word -/

theorem bit_cases {i : Nat} (hi : i < 16) : i = 0 ∨ i = 1 ∨ i = 2 ∨ i = 3 ∨ i = 4 ∨ i = 5 ∨ i = 6 ∨ i = 7 ∨ i = 8 ∨
    i = 9 ∨ i = 10 ∨ i = 11 ∨ i = 12 ∨ i = 13 ∨ i = 14 ∨ i = 15 := by omega

/-- The mask 0xF000 keeps the family (30_encoding R94). -/
theorem mask_family (op : Word) : op &&& 0xF000 = wordNNN (familyOf op) 0 := by
  unfold wordNNN familyOf
  ext i hi
  rcases bit_cases hi with rfl | rfl | rfl | rfl | rfl | rfl | rfl | rfl | rfl | rfl | rfl | rfl | rfl | rfl | rfl | rfl <;>
    simp <;> grind

/-- The mask 0xF00F keeps the family and N (30_encoding R94). -/
theorem mask_familyN (op : Word) : op &&& 0xF00F = wordXYN (familyOf op) 0 0 (fieldN op) := by
  have h : regBits 0 = 0#4 := rfl
  unfold wordXYN familyOf fieldN
  rw [h]
  ext i hi
  rcases bit_cases hi with rfl | rfl | rfl | rfl | rfl | rfl | rfl | rfl | rfl | rfl | rfl | rfl | rfl | rfl | rfl | rfl <;>
    simp <;> grind

/-- The mask 0xF0FF keeps the family and NN (30_encoding R94). -/
theorem mask_familyNN (op : Word) : op &&& 0xF0FF = wordXNN (familyOf op) 0 (fieldNN op) := by
  have h : regBits 0 = 0#4 := rfl
  unfold wordXNN familyOf fieldNN
  rw [h]
  ext i hi
  rcases bit_cases hi with rfl | rfl | rfl | rfl | rfl | rfl | rfl | rfl | rfl | rfl | rfl | rfl | rfl | rfl | rfl | rfl <;>
    simp <;> grind

theorem familyOf_of_mask {op p : Word} (h : op &&& 0xF000 = p) : familyOf op = familyOf p := by
  rw [← h, mask_family, familyOf_wordNNN]

theorem fields_of_maskN {op p : Word} (h : op &&& 0xF00F = p) : familyOf op = familyOf p ∧ fieldN op = fieldN p := by
  rw [← h, mask_familyN, familyOf_wordXYN, fieldN_wordXYN]
  exact ⟨rfl, rfl⟩

theorem fields_of_maskNN {op p : Word} (h : op &&& 0xF0FF = p) : familyOf op = familyOf p ∧ fieldNN op = fieldNN p := by
  rw [← h, mask_familyNN, familyOf_wordXNN, fieldNN_wordXNN]
  exact ⟨rfl, rfl⟩

/-! ## Byte order -/

@[simp] theorem bigEndian_bytes (op : Word) : bigEndian (highByte op) (lowByte op) = op := by
  unfold bigEndian highByte lowByte
  ext i hi
  simp; grind

/-- The opcode is `hi * 256 + lo` (20_memory R66). -/
theorem bigEndian_toNat (hi lo : Byte) : (bigEndian hi lo).toNat = hi.toNat * 256 + lo.toNat := by
  unfold bigEndian
  rw [BitVec.toNat_append, ← Nat.shiftLeft_add_eq_or_of_lt lo.isLt, Nat.shiftLeft_eq]

end Sys2Proof
end

