-- ==== Sys2Proof/Laws/Memory.lean ====
section
/-! SUPPORT. What the memory operations do: a read after a write, the canonical form kept, and one lemma for each of the
checked accesses and blocks that says everything it can do (20_memory R63 to R65; 43_index_memory R250). -/

namespace Sys2Proof.Machine

/-! ## Read and write -/

@[simp] theorem Memory.read_nil (a : Nat) : Memory.read [] a = Memory.unlisted a := rfl

theorem Memory.read_cons (c : Host.Cell) (m : Memory) (a : Nat) :
    Memory.read (c :: m) a = if c.1 = a then c.2 else Memory.read m a := rfl

theorem Memory.read_remove (m : Memory) (a b : Nat) :
    (m.remove a).read b = if b = a then Memory.unlisted b else m.read b := by
  induction m with
  | nil => simp [Memory.remove]
  | cons c m ih =>
    simp only [Memory.remove] at ih ⊢
    by_cases hc : c.1 = a
    · rw [List.filter_cons_of_neg (by simpa using hc), ih, Memory.read_cons]
      by_cases hb : b = a
      · simp [hb]
      · have : c.1 ≠ b := by omega
        simp [hb, this]
    · rw [List.filter_cons_of_pos (by simpa using hc), Memory.read_cons, Memory.read_cons, ih]
      by_cases hb : b = a
      · subst hb; simp [hc]
      · simp [hb]

theorem Memory.read_place (m : Memory) (a b : Nat) (v : Byte) (h : ∀ c ∈ m, c.1 ≠ a) :
    (m.place a v).read b = if b = a then v else m.read b := by
  induction m with
  | nil => simp [Memory.place, Memory.read_cons, eq_comm]
  | cons c m ih =>
    have hc := h c (by simp)
    have ih := ih fun d hd => h d (by simp [hd])
    simp only [Memory.place]
    split
    · simp [Memory.read_cons, eq_comm]
    · rw [Memory.read_cons, Memory.read_cons, ih]
      by_cases hb : b = a
      · subst hb; simp [hc]
      · simp [hb]

theorem Memory.mem_remove {m : Memory} {a : Nat} {c : Host.Cell} : c ∈ m.remove a ↔ c ∈ m ∧ c.1 ≠ a := by
  simp [Memory.remove]

/-- A read after a write: the byte written at its address, every other byte as before, in every memory. -/
theorem Memory.read_write (m : Memory) (a b : Nat) (v : Byte) :
    (m.write a v).read b = if b = a then v else m.read b := by
  unfold Memory.write
  split
  · next h => rw [Memory.read_remove]; split <;> simp_all
  · rw [Memory.read_place _ _ _ _ fun c hc => (Memory.mem_remove.mp hc).2, Memory.read_remove]
    split <;> simp_all

@[simp] theorem Memory.read_write_self (m : Memory) (a : Nat) (v : Byte) : (m.write a v).read a = v := by
  simp [Memory.read_write]

theorem Memory.read_write_ne (m : Memory) {a b : Nat} (v : Byte) (h : b ≠ a) : (m.write a v).read b = m.read b := by
  simp [Memory.read_write, h]

/-! ## The canonical form -/

theorem Memory.mem_place {m : Memory} {a : Nat} {v : Byte} {c : Host.Cell} :
    c ∈ m.place a v ↔ c = (a, v) ∨ c ∈ m := by
  induction m with
  | nil => simp [Memory.place]
  | cons d m ih =>
    simp only [Memory.place]
    split
    · simp
    · simp only [List.mem_cons, ih]; tauto

theorem Memory.wf_nil : Memory.wf [] := by simp [Memory.wf]

theorem Memory.wf_remove {m : Memory} (h : m.wf) (a : Nat) : (m.remove a).wf :=
  ⟨h.1.filter _, fun c hc => h.2 c (Memory.mem_remove.mp hc).1⟩

theorem Memory.sorted_place {m : Memory} (a : Nat) (v : Byte) (hs : m.Pairwise fun c d => c.1 < d.1)
    (h : ∀ c ∈ m, c.1 ≠ a) : (m.place a v).Pairwise fun c d => c.1 < d.1 := by
  induction m with
  | nil => simp [Memory.place]
  | cons c m ih =>
    have hc := h c (by simp)
    obtain ⟨hcm, hm⟩ := List.pairwise_cons.mp hs
    simp only [Memory.place]
    split
    · next hlt =>
      refine List.pairwise_cons.mpr ⟨fun d hd => ?_, hs⟩
      rcases List.mem_cons.mp hd with rfl | hd
      · exact hlt
      · exact lt_trans hlt (hcm d hd)
    · next hge =>
      refine List.pairwise_cons.mpr ⟨fun d hd => ?_, ih hm fun d hd => h d (by simp [hd])⟩
      rcases Memory.mem_place.mp hd with rfl | hd
      · simp only at hge ⊢; omega
      · exact hcm d hd

/-- A write outside the font region and inside memory keeps the canonical form. -/
theorem Memory.wf_write {m : Memory} (h : m.wf) {a : Nat} (v : Byte) (h1 : Config.fontEnd ≤ a)
    (h2 : a < Config.memSize) : (m.write a v).wf := by
  unfold Memory.write
  split
  · exact Memory.wf_remove h a
  · next hv =>
    refine ⟨Memory.sorted_place a v (Memory.wf_remove h a).1 fun c hc => (Memory.mem_remove.mp hc).2, ?_⟩
    intro c hc
    rcases Memory.mem_place.mp hc with rfl | hc
    · exact ⟨hv, h1, h2⟩
    · exact (Memory.wf_remove h a).2 c hc

/-- A canonical memory reads the font below 0x050. -/
theorem Memory.read_font {m : Memory} (h : m.wf) {a : Nat} (ha : a < Config.fontEnd) :
    m.read a = Memory.unlisted a := by
  obtain ⟨-, h2⟩ := h
  induction m with
  | nil => rfl
  | cons c m ih =>
    have hc := (h2 c (by simp)).2.1
    rw [Memory.read_cons, if_neg (by omega)]
    exact ih fun d hd => h2 d (by simp [hd])

/-! ## Checked accesses -/

/-- Everything `memRead` can do (20_memory R63). -/
theorem memRead_eq (m : Memory) (a : Nat) :
    memRead m a = if 0xFFF < a then .error ⟨.memoryOutOfRange, some a, none⟩ else .ok (m.read a) := rfl

theorem memRead_ok {m : Memory} {a : Nat} (h : a ≤ 0xFFF) : memRead m a = .ok (m.read a) := by
  rw [memRead_eq, if_neg (by omega)]

theorem memWrite_ok {m : Memory} {a : Nat} (v : Byte) (h1 : 0x050 ≤ a) (h2 : a ≤ 0xFFF) :
    memWrite m a v = .ok (m.write a v) := by
  unfold memWrite
  rw [if_neg (by omega), if_neg (by omega)]

/-- A store that is made was at a writable address (20_memory R64). -/
theorem memWrite_cases {m m' : Memory} {a : Nat} {v : Byte} (h : memWrite m a v = .ok m') :
    0x050 ≤ a ∧ a ≤ 0xFFF ∧ m' = m.write a v := by
  unfold memWrite at h
  split at h
  · cases h
  · split at h
    · cases h
    · cases h; exact ⟨by omega, by omega, rfl⟩

/-! ## Blocks -/

/-- A block inside memory is read: byte k is the byte at a + k. -/
theorem readBlock_ok (m : Memory) (a n : Nat) (h : a + n ≤ 0x1000) :
    readBlock m a n = .ok ((List.range n).map fun k => m.read (a + k)) := by
  induction n generalizing a with
  | zero => rfl
  | succ n ih =>
    simp only [readBlock]
    rw [memRead_ok (by omega), ih (a + 1) (by omega)]
    simp only [List.range_succ_eq_map, List.map_cons, List.map_map, Nat.add_zero]
    congr 2
    apply List.map_congr_left
    intro k _
    simp only [Function.comp_apply]
    congr 1
    omega

/-- A block that passes 0xFFF is not read: the fault names the lowest address above 0xFFF (60_exceptions R369). -/
theorem readBlock_error (m : Memory) (a n : Nat) (hn : 0 < n) (h : 0x1000 < a + n) :
    readBlock m a n = .error ⟨.memoryOutOfRange, some (max a 0x1000), none⟩ := by
  induction n generalizing a with
  | zero => omega
  | succ n ih =>
    simp only [readBlock]
    by_cases ha : 0xFFF < a
    · rw [memRead_eq, if_pos ha, Nat.max_eq_left (by omega)]
    · rw [memRead_ok (by omega), ih (a + 1) (by omega) (by omega)]
      have : max (a + 1) 0x1000 = max a 0x1000 := by omega
      rw [this]

/-- A block written from `a` up, as plain writes. -/
theorem writeBlock_ok (m : Memory) (a : Nat) (bs : List Byte) (h1 : 0x050 ≤ a) (h2 : a + bs.length ≤ 0x1000) :
    writeBlock m a bs = .ok (Memory.putBytes m a bs) := by
  induction bs generalizing m a with
  | nil => rfl
  | cons b bs ih =>
    simp only [List.length_cons] at h2
    simp only [writeBlock]
    rw [memWrite_ok b h1 (by omega)]
    exact ih _ (a + 1) (by omega) (by omega)

/-- A block whose base is in the font region is not written: the fault names the base (60_exceptions R369). -/
theorem writeBlock_font (m : Memory) (a : Nat) (b : Byte) (bs : List Byte) (h : a < 0x050) :
    writeBlock m a (b :: bs) = .error ⟨.fontRegionWrite, some a, none⟩ := by
  simp only [writeBlock, memWrite]
  rw [if_neg (by omega), if_pos h]

/-- A block that passes 0xFFF is not written: the fault names the lowest address above 0xFFF (60_exceptions R369). -/
theorem writeBlock_error (m : Memory) (a : Nat) (bs : List Byte) (hn : bs ≠ []) (h1 : 0x050 ≤ a)
    (h2 : 0x1000 < a + bs.length) :
    writeBlock m a bs = .error ⟨.memoryOutOfRange, some (max a 0x1000), none⟩ := by
  induction bs generalizing m a with
  | nil => exact absurd rfl hn
  | cons b bs ih =>
    simp only [List.length_cons] at h2
    simp only [writeBlock]
    by_cases ha : 0xFFF < a
    · simp only [memWrite, if_pos ha, Nat.max_eq_left (show 0x1000 ≤ a by omega)]
    · rw [memWrite_ok b h1 (by omega)]
      have hne : bs ≠ [] := by rintro rfl; simp at h2; omega
      have : max (a + 1) 0x1000 = max a 0x1000 := by omega
      simp only [ih (m.write a b) (a + 1) hne (by omega) (by omega), this]

/-- A block that is written keeps the canonical form. -/
theorem writeBlock_wf {m m' : Memory} {a : Nat} {bs : List Byte} (h : writeBlock m a bs = .ok m') (hm : m.wf) :
    m'.wf := by
  induction bs generalizing m a with
  | nil => cases h; exact hm
  | cons b bs ih =>
    simp only [writeBlock] at h
    split at h
    · cases h
    · next m1 h1 =>
      obtain ⟨ha, hb, rfl⟩ := memWrite_cases h1
      exact ih h (Memory.wf_write hm b ha (Nat.lt_succ_of_le hb))

/-! ## The loader's copy -/

/-- What memory reads as after bytes are put from `a` up. -/
theorem Memory.read_putBytes (m : Memory) (a : Nat) (bs : List Byte) (b : Nat) :
    (Memory.putBytes m a bs).read b =
      if a ≤ b ∧ b - a < bs.length then bs.getD (b - a) 0 else m.read b := by
  induction bs generalizing m a with
  | nil => simp [Memory.putBytes]
  | cons c bs ih =>
    simp only [Memory.putBytes, List.length_cons]
    rw [ih, Memory.read_write]
    by_cases h1 : b = a
    · subst h1
      rw [if_neg (by omega), if_pos rfl, if_pos (by omega), Nat.sub_self]
      rfl
    · rw [if_neg h1]
      by_cases h2 : a + 1 ≤ b ∧ b - (a + 1) < bs.length
      · rw [if_pos h2, if_pos (by omega), show b - a = (b - (a + 1)) + 1 by omega]
        rfl
      · rw [if_neg h2, if_neg (by omega)]

/-- Bytes put inside memory and outside the font keep the canonical form. -/
theorem Memory.wf_putBytes {m : Memory} (h : m.wf) (a : Nat) (bs : List Byte) (h1 : Config.fontEnd ≤ a)
    (h2 : a + bs.length ≤ Config.memSize) : (Memory.putBytes m a bs).wf := by
  induction bs generalizing m a with
  | nil => exact h
  | cons b bs ih =>
    simp only [List.length_cons] at h2
    exact ih (Memory.wf_write h b h1 (by omega)) (a + 1) (by omega) (by omega)

/-- What memory reads as after `n` addresses from `a` up are filled. -/
theorem Memory.read_fill (f : Nat → Byte) (m : Memory) (a n b : Nat) :
    (Memory.fill f m a n).read b = if a ≤ b ∧ b < a + n then f b else m.read b := by
  induction n generalizing m a with
  | zero => rw [if_neg (by omega)]; rfl
  | succ n ih =>
    simp only [Memory.fill]
    rw [ih, Memory.read_write]
    by_cases h1 : b = a
    · subst h1
      rw [if_neg (by omega), if_pos rfl, if_pos (by omega)]
    · rw [if_neg h1]
      by_cases h2 : a + 1 ≤ b ∧ b < a + 1 + n
      · rw [if_pos h2, if_pos (by omega)]
      · rw [if_neg h2, if_neg (by omega)]

/-- A fill inside memory and outside the font keeps the canonical form. -/
theorem Memory.wf_fill (f : Nat → Byte) {m : Memory} (h : m.wf) (a n : Nat) (h1 : Config.fontEnd ≤ a)
    (h2 : a + n ≤ Config.memSize) : (Memory.fill f m a n).wf := by
  induction n generalizing m a with
  | zero => exact h
  | succ n ih => exact ih (Memory.wf_write h (f a) h1 (by omega)) (a + 1) (by omega) (by omega)

end Sys2Proof.Machine
end

