-- ==== Sys2Proof/Laws/State.lean ====
section
/-! SUPPORT. One lemma per field per update of the state, each true by `rfl`, and what the register file reads as after an
update, so that no proof unfolds a record update. -/

namespace Sys2Proof.Machine

/-! ## Register reads -/

theorem State.reg_eq (s : State) (x : RegIdx) : s.reg x = s.v[x] := rfl

/-- Two states with one register file agree on every register. -/
theorem State.reg_congr {s t : State} (h : t.v = s.v) (x : RegIdx) : t.reg x = s.reg x := by
  simp only [State.reg_eq, h]

/-- The register file after one write. -/
theorem State.setReg_reg (s : State) (x : RegIdx) (b : Byte) (y : RegIdx) :
    (s.setReg x b).reg y = if y = x then b else s.reg y := by
  by_cases h : y = x
  · subst h; simp [State.reg, State.setReg]
  · have : x.val ≠ y.val := fun e => h (Fin.ext e.symm)
    simp [State.reg, State.setReg, h, Vector.getElem_set_ne _ _ this]

@[simp] theorem State.setReg_reg_self (s : State) (x : RegIdx) (b : Byte) : (s.setReg x b).reg x = b := by
  simp [State.setReg_reg]

theorem State.setReg_reg_ne (s : State) {x y : RegIdx} (b : Byte) (h : y ≠ x) : (s.setReg x b).reg y = s.reg y := by
  simp [State.setReg_reg, h]

/-- The register file after a result and its flag: the flag is what VF holds (42_alu R200). -/
theorem State.setFlagged_reg (s : State) (x : RegIdx) (r f : Byte) (y : RegIdx) :
    (s.setFlagged x r f).reg y = if y = VF then f else if y = x then r else s.reg y := by
  simp only [State.setFlagged, State.setReg_reg]

/-- The register file after the end of a wait (45_timers_keys R330). -/
theorem State.storeKey_reg (s : State) (x : RegIdx) (k : Key) (y : RegIdx) :
    (s.storeKey x k).reg y = if y = x then BitVec.ofNat 8 k.val else s.reg y :=
  State.setReg_reg s x _ y

/-! ## State.setReg -/

@[simp] theorem State.setReg_mem (s : State) (x : RegIdx) (b : Byte) : (s.setReg x b).mem = s.mem := rfl
@[simp] theorem State.setReg_v (s : State) (x : RegIdx) (b : Byte) : (s.setReg x b).v = s.v.set x b := rfl
@[simp] theorem State.setReg_i (s : State) (x : RegIdx) (b : Byte) : (s.setReg x b).i = s.i := rfl
@[simp] theorem State.setReg_pc (s : State) (x : RegIdx) (b : Byte) : (s.setReg x b).pc = s.pc := rfl
@[simp] theorem State.setReg_stack (s : State) (x : RegIdx) (b : Byte) : (s.setReg x b).stack = s.stack := rfl
@[simp] theorem State.setReg_sp (s : State) (x : RegIdx) (b : Byte) : (s.setReg x b).sp = s.sp := rfl
@[simp] theorem State.setReg_dt (s : State) (x : RegIdx) (b : Byte) : (s.setReg x b).dt = s.dt := rfl
@[simp] theorem State.setReg_st (s : State) (x : RegIdx) (b : Byte) : (s.setReg x b).st = s.st := rfl
@[simp] theorem State.setReg_fb (s : State) (x : RegIdx) (b : Byte) : (s.setReg x b).fb = s.fb := rfl
@[simp] theorem State.setReg_run (s : State) (x : RegIdx) (b : Byte) : (s.setReg x b).run = s.run := rfl
@[simp] theorem State.setReg_awaitKey (s : State) (x : RegIdx) (b : Byte) : (s.setReg x b).awaitKey = s.awaitKey := rfl
@[simp] theorem State.setReg_kprev (s : State) (x : RegIdx) (b : Byte) : (s.setReg x b).kprev = s.kprev := rfl
@[simp] theorem State.setReg_fault (s : State) (x : RegIdx) (b : Byte) : (s.setReg x b).fault = s.fault := rfl
@[simp] theorem State.setReg_keypad (s : State) (x : RegIdx) (b : Byte) : (s.setReg x b).keypad = s.keypad := rfl
@[simp] theorem State.setReg_inputs (s : State) (x : RegIdx) (b : Byte) : (s.setReg x b).inputs = s.inputs := rfl
@[simp] theorem State.setReg_draws (s : State) (x : RegIdx) (b : Byte) : (s.setReg x b).draws = s.draws := rfl

/-! ## State.setV -/

@[simp] theorem State.setV_mem (s : State) (w : Vector Byte 16) : (s.setV w).mem = s.mem := rfl
@[simp] theorem State.setV_v (s : State) (w : Vector Byte 16) : (s.setV w).v = w := rfl
@[simp] theorem State.setV_i (s : State) (w : Vector Byte 16) : (s.setV w).i = s.i := rfl
@[simp] theorem State.setV_pc (s : State) (w : Vector Byte 16) : (s.setV w).pc = s.pc := rfl
@[simp] theorem State.setV_stack (s : State) (w : Vector Byte 16) : (s.setV w).stack = s.stack := rfl
@[simp] theorem State.setV_sp (s : State) (w : Vector Byte 16) : (s.setV w).sp = s.sp := rfl
@[simp] theorem State.setV_dt (s : State) (w : Vector Byte 16) : (s.setV w).dt = s.dt := rfl
@[simp] theorem State.setV_st (s : State) (w : Vector Byte 16) : (s.setV w).st = s.st := rfl
@[simp] theorem State.setV_fb (s : State) (w : Vector Byte 16) : (s.setV w).fb = s.fb := rfl
@[simp] theorem State.setV_run (s : State) (w : Vector Byte 16) : (s.setV w).run = s.run := rfl
@[simp] theorem State.setV_awaitKey (s : State) (w : Vector Byte 16) : (s.setV w).awaitKey = s.awaitKey := rfl
@[simp] theorem State.setV_kprev (s : State) (w : Vector Byte 16) : (s.setV w).kprev = s.kprev := rfl
@[simp] theorem State.setV_fault (s : State) (w : Vector Byte 16) : (s.setV w).fault = s.fault := rfl
@[simp] theorem State.setV_keypad (s : State) (w : Vector Byte 16) : (s.setV w).keypad = s.keypad := rfl
@[simp] theorem State.setV_inputs (s : State) (w : Vector Byte 16) : (s.setV w).inputs = s.inputs := rfl
@[simp] theorem State.setV_draws (s : State) (w : Vector Byte 16) : (s.setV w).draws = s.draws := rfl

/-! ## State.setI -/

@[simp] theorem State.setI_reg (s : State) (w : Word) (y : RegIdx) : (s.setI w).reg y = s.reg y := rfl
@[simp] theorem State.setI_mem (s : State) (w : Word) : (s.setI w).mem = s.mem := rfl
@[simp] theorem State.setI_v (s : State) (w : Word) : (s.setI w).v = s.v := rfl
@[simp] theorem State.setI_i (s : State) (w : Word) : (s.setI w).i = w := rfl
@[simp] theorem State.setI_pc (s : State) (w : Word) : (s.setI w).pc = s.pc := rfl
@[simp] theorem State.setI_stack (s : State) (w : Word) : (s.setI w).stack = s.stack := rfl
@[simp] theorem State.setI_sp (s : State) (w : Word) : (s.setI w).sp = s.sp := rfl
@[simp] theorem State.setI_dt (s : State) (w : Word) : (s.setI w).dt = s.dt := rfl
@[simp] theorem State.setI_st (s : State) (w : Word) : (s.setI w).st = s.st := rfl
@[simp] theorem State.setI_fb (s : State) (w : Word) : (s.setI w).fb = s.fb := rfl
@[simp] theorem State.setI_run (s : State) (w : Word) : (s.setI w).run = s.run := rfl
@[simp] theorem State.setI_awaitKey (s : State) (w : Word) : (s.setI w).awaitKey = s.awaitKey := rfl
@[simp] theorem State.setI_kprev (s : State) (w : Word) : (s.setI w).kprev = s.kprev := rfl
@[simp] theorem State.setI_fault (s : State) (w : Word) : (s.setI w).fault = s.fault := rfl
@[simp] theorem State.setI_keypad (s : State) (w : Word) : (s.setI w).keypad = s.keypad := rfl
@[simp] theorem State.setI_inputs (s : State) (w : Word) : (s.setI w).inputs = s.inputs := rfl
@[simp] theorem State.setI_draws (s : State) (w : Word) : (s.setI w).draws = s.draws := rfl

/-! ## State.setPC -/

@[simp] theorem State.setPC_reg (s : State) (w : Word) (y : RegIdx) : (s.setPC w).reg y = s.reg y := rfl
@[simp] theorem State.setPC_mem (s : State) (w : Word) : (s.setPC w).mem = s.mem := rfl
@[simp] theorem State.setPC_v (s : State) (w : Word) : (s.setPC w).v = s.v := rfl
@[simp] theorem State.setPC_i (s : State) (w : Word) : (s.setPC w).i = s.i := rfl
@[simp] theorem State.setPC_pc (s : State) (w : Word) : (s.setPC w).pc = w := rfl
@[simp] theorem State.setPC_stack (s : State) (w : Word) : (s.setPC w).stack = s.stack := rfl
@[simp] theorem State.setPC_sp (s : State) (w : Word) : (s.setPC w).sp = s.sp := rfl
@[simp] theorem State.setPC_dt (s : State) (w : Word) : (s.setPC w).dt = s.dt := rfl
@[simp] theorem State.setPC_st (s : State) (w : Word) : (s.setPC w).st = s.st := rfl
@[simp] theorem State.setPC_fb (s : State) (w : Word) : (s.setPC w).fb = s.fb := rfl
@[simp] theorem State.setPC_run (s : State) (w : Word) : (s.setPC w).run = s.run := rfl
@[simp] theorem State.setPC_awaitKey (s : State) (w : Word) : (s.setPC w).awaitKey = s.awaitKey := rfl
@[simp] theorem State.setPC_kprev (s : State) (w : Word) : (s.setPC w).kprev = s.kprev := rfl
@[simp] theorem State.setPC_fault (s : State) (w : Word) : (s.setPC w).fault = s.fault := rfl
@[simp] theorem State.setPC_keypad (s : State) (w : Word) : (s.setPC w).keypad = s.keypad := rfl
@[simp] theorem State.setPC_inputs (s : State) (w : Word) : (s.setPC w).inputs = s.inputs := rfl
@[simp] theorem State.setPC_draws (s : State) (w : Word) : (s.setPC w).draws = s.draws := rfl

/-! ## State.advance -/

@[simp] theorem State.advance_reg (s : State) (y : RegIdx) : (s.advance).reg y = s.reg y := rfl
@[simp] theorem State.advance_mem (s : State) : (s.advance).mem = s.mem := rfl
@[simp] theorem State.advance_v (s : State) : (s.advance).v = s.v := rfl
@[simp] theorem State.advance_i (s : State) : (s.advance).i = s.i := rfl
@[simp] theorem State.advance_pc (s : State) : (s.advance).pc = s.pc + 2 := rfl
@[simp] theorem State.advance_stack (s : State) : (s.advance).stack = s.stack := rfl
@[simp] theorem State.advance_sp (s : State) : (s.advance).sp = s.sp := rfl
@[simp] theorem State.advance_dt (s : State) : (s.advance).dt = s.dt := rfl
@[simp] theorem State.advance_st (s : State) : (s.advance).st = s.st := rfl
@[simp] theorem State.advance_fb (s : State) : (s.advance).fb = s.fb := rfl
@[simp] theorem State.advance_run (s : State) : (s.advance).run = s.run := rfl
@[simp] theorem State.advance_awaitKey (s : State) : (s.advance).awaitKey = s.awaitKey := rfl
@[simp] theorem State.advance_kprev (s : State) : (s.advance).kprev = s.kprev := rfl
@[simp] theorem State.advance_fault (s : State) : (s.advance).fault = s.fault := rfl
@[simp] theorem State.advance_keypad (s : State) : (s.advance).keypad = s.keypad := rfl
@[simp] theorem State.advance_inputs (s : State) : (s.advance).inputs = s.inputs := rfl
@[simp] theorem State.advance_draws (s : State) : (s.advance).draws = s.draws := rfl

/-! ## State.setDT -/

@[simp] theorem State.setDT_reg (s : State) (b : Byte) (y : RegIdx) : (s.setDT b).reg y = s.reg y := rfl
@[simp] theorem State.setDT_mem (s : State) (b : Byte) : (s.setDT b).mem = s.mem := rfl
@[simp] theorem State.setDT_v (s : State) (b : Byte) : (s.setDT b).v = s.v := rfl
@[simp] theorem State.setDT_i (s : State) (b : Byte) : (s.setDT b).i = s.i := rfl
@[simp] theorem State.setDT_pc (s : State) (b : Byte) : (s.setDT b).pc = s.pc := rfl
@[simp] theorem State.setDT_stack (s : State) (b : Byte) : (s.setDT b).stack = s.stack := rfl
@[simp] theorem State.setDT_sp (s : State) (b : Byte) : (s.setDT b).sp = s.sp := rfl
@[simp] theorem State.setDT_dt (s : State) (b : Byte) : (s.setDT b).dt = b := rfl
@[simp] theorem State.setDT_st (s : State) (b : Byte) : (s.setDT b).st = s.st := rfl
@[simp] theorem State.setDT_fb (s : State) (b : Byte) : (s.setDT b).fb = s.fb := rfl
@[simp] theorem State.setDT_run (s : State) (b : Byte) : (s.setDT b).run = s.run := rfl
@[simp] theorem State.setDT_awaitKey (s : State) (b : Byte) : (s.setDT b).awaitKey = s.awaitKey := rfl
@[simp] theorem State.setDT_kprev (s : State) (b : Byte) : (s.setDT b).kprev = s.kprev := rfl
@[simp] theorem State.setDT_fault (s : State) (b : Byte) : (s.setDT b).fault = s.fault := rfl
@[simp] theorem State.setDT_keypad (s : State) (b : Byte) : (s.setDT b).keypad = s.keypad := rfl
@[simp] theorem State.setDT_inputs (s : State) (b : Byte) : (s.setDT b).inputs = s.inputs := rfl
@[simp] theorem State.setDT_draws (s : State) (b : Byte) : (s.setDT b).draws = s.draws := rfl

/-! ## State.setST -/

@[simp] theorem State.setST_reg (s : State) (b : Byte) (y : RegIdx) : (s.setST b).reg y = s.reg y := rfl
@[simp] theorem State.setST_mem (s : State) (b : Byte) : (s.setST b).mem = s.mem := rfl
@[simp] theorem State.setST_v (s : State) (b : Byte) : (s.setST b).v = s.v := rfl
@[simp] theorem State.setST_i (s : State) (b : Byte) : (s.setST b).i = s.i := rfl
@[simp] theorem State.setST_pc (s : State) (b : Byte) : (s.setST b).pc = s.pc := rfl
@[simp] theorem State.setST_stack (s : State) (b : Byte) : (s.setST b).stack = s.stack := rfl
@[simp] theorem State.setST_sp (s : State) (b : Byte) : (s.setST b).sp = s.sp := rfl
@[simp] theorem State.setST_dt (s : State) (b : Byte) : (s.setST b).dt = s.dt := rfl
@[simp] theorem State.setST_st (s : State) (b : Byte) : (s.setST b).st = b := rfl
@[simp] theorem State.setST_fb (s : State) (b : Byte) : (s.setST b).fb = s.fb := rfl
@[simp] theorem State.setST_run (s : State) (b : Byte) : (s.setST b).run = s.run := rfl
@[simp] theorem State.setST_awaitKey (s : State) (b : Byte) : (s.setST b).awaitKey = s.awaitKey := rfl
@[simp] theorem State.setST_kprev (s : State) (b : Byte) : (s.setST b).kprev = s.kprev := rfl
@[simp] theorem State.setST_fault (s : State) (b : Byte) : (s.setST b).fault = s.fault := rfl
@[simp] theorem State.setST_keypad (s : State) (b : Byte) : (s.setST b).keypad = s.keypad := rfl
@[simp] theorem State.setST_inputs (s : State) (b : Byte) : (s.setST b).inputs = s.inputs := rfl
@[simp] theorem State.setST_draws (s : State) (b : Byte) : (s.setST b).draws = s.draws := rfl

/-! ## State.setMem -/

@[simp] theorem State.setMem_reg (s : State) (m : Memory) (y : RegIdx) : (s.setMem m).reg y = s.reg y := rfl
@[simp] theorem State.setMem_mem (s : State) (m : Memory) : (s.setMem m).mem = m := rfl
@[simp] theorem State.setMem_v (s : State) (m : Memory) : (s.setMem m).v = s.v := rfl
@[simp] theorem State.setMem_i (s : State) (m : Memory) : (s.setMem m).i = s.i := rfl
@[simp] theorem State.setMem_pc (s : State) (m : Memory) : (s.setMem m).pc = s.pc := rfl
@[simp] theorem State.setMem_stack (s : State) (m : Memory) : (s.setMem m).stack = s.stack := rfl
@[simp] theorem State.setMem_sp (s : State) (m : Memory) : (s.setMem m).sp = s.sp := rfl
@[simp] theorem State.setMem_dt (s : State) (m : Memory) : (s.setMem m).dt = s.dt := rfl
@[simp] theorem State.setMem_st (s : State) (m : Memory) : (s.setMem m).st = s.st := rfl
@[simp] theorem State.setMem_fb (s : State) (m : Memory) : (s.setMem m).fb = s.fb := rfl
@[simp] theorem State.setMem_run (s : State) (m : Memory) : (s.setMem m).run = s.run := rfl
@[simp] theorem State.setMem_awaitKey (s : State) (m : Memory) : (s.setMem m).awaitKey = s.awaitKey := rfl
@[simp] theorem State.setMem_kprev (s : State) (m : Memory) : (s.setMem m).kprev = s.kprev := rfl
@[simp] theorem State.setMem_fault (s : State) (m : Memory) : (s.setMem m).fault = s.fault := rfl
@[simp] theorem State.setMem_keypad (s : State) (m : Memory) : (s.setMem m).keypad = s.keypad := rfl
@[simp] theorem State.setMem_inputs (s : State) (m : Memory) : (s.setMem m).inputs = s.inputs := rfl
@[simp] theorem State.setMem_draws (s : State) (m : Memory) : (s.setMem m).draws = s.draws := rfl

/-! ## State.setFB -/

@[simp] theorem State.setFB_reg (s : State) (g : Framebuffer) (y : RegIdx) : (s.setFB g).reg y = s.reg y := rfl
@[simp] theorem State.setFB_mem (s : State) (g : Framebuffer) : (s.setFB g).mem = s.mem := rfl
@[simp] theorem State.setFB_v (s : State) (g : Framebuffer) : (s.setFB g).v = s.v := rfl
@[simp] theorem State.setFB_i (s : State) (g : Framebuffer) : (s.setFB g).i = s.i := rfl
@[simp] theorem State.setFB_pc (s : State) (g : Framebuffer) : (s.setFB g).pc = s.pc := rfl
@[simp] theorem State.setFB_stack (s : State) (g : Framebuffer) : (s.setFB g).stack = s.stack := rfl
@[simp] theorem State.setFB_sp (s : State) (g : Framebuffer) : (s.setFB g).sp = s.sp := rfl
@[simp] theorem State.setFB_dt (s : State) (g : Framebuffer) : (s.setFB g).dt = s.dt := rfl
@[simp] theorem State.setFB_st (s : State) (g : Framebuffer) : (s.setFB g).st = s.st := rfl
@[simp] theorem State.setFB_fb (s : State) (g : Framebuffer) : (s.setFB g).fb = g := rfl
@[simp] theorem State.setFB_run (s : State) (g : Framebuffer) : (s.setFB g).run = s.run := rfl
@[simp] theorem State.setFB_awaitKey (s : State) (g : Framebuffer) : (s.setFB g).awaitKey = s.awaitKey := rfl
@[simp] theorem State.setFB_kprev (s : State) (g : Framebuffer) : (s.setFB g).kprev = s.kprev := rfl
@[simp] theorem State.setFB_fault (s : State) (g : Framebuffer) : (s.setFB g).fault = s.fault := rfl
@[simp] theorem State.setFB_keypad (s : State) (g : Framebuffer) : (s.setFB g).keypad = s.keypad := rfl
@[simp] theorem State.setFB_inputs (s : State) (g : Framebuffer) : (s.setFB g).inputs = s.inputs := rfl
@[simp] theorem State.setFB_draws (s : State) (g : Framebuffer) : (s.setFB g).draws = s.draws := rfl

/-! ## State.setAwait -/

@[simp] theorem State.setAwait_reg (s : State) (w : Option RegIdx) (y : RegIdx) : (s.setAwait w).reg y = s.reg y := rfl
@[simp] theorem State.setAwait_mem (s : State) (w : Option RegIdx) : (s.setAwait w).mem = s.mem := rfl
@[simp] theorem State.setAwait_v (s : State) (w : Option RegIdx) : (s.setAwait w).v = s.v := rfl
@[simp] theorem State.setAwait_i (s : State) (w : Option RegIdx) : (s.setAwait w).i = s.i := rfl
@[simp] theorem State.setAwait_pc (s : State) (w : Option RegIdx) : (s.setAwait w).pc = s.pc := rfl
@[simp] theorem State.setAwait_stack (s : State) (w : Option RegIdx) : (s.setAwait w).stack = s.stack := rfl
@[simp] theorem State.setAwait_sp (s : State) (w : Option RegIdx) : (s.setAwait w).sp = s.sp := rfl
@[simp] theorem State.setAwait_dt (s : State) (w : Option RegIdx) : (s.setAwait w).dt = s.dt := rfl
@[simp] theorem State.setAwait_st (s : State) (w : Option RegIdx) : (s.setAwait w).st = s.st := rfl
@[simp] theorem State.setAwait_fb (s : State) (w : Option RegIdx) : (s.setAwait w).fb = s.fb := rfl
@[simp] theorem State.setAwait_run (s : State) (w : Option RegIdx) : (s.setAwait w).run = s.run := rfl
@[simp] theorem State.setAwait_awaitKey (s : State) (w : Option RegIdx) : (s.setAwait w).awaitKey = w := rfl
@[simp] theorem State.setAwait_kprev (s : State) (w : Option RegIdx) : (s.setAwait w).kprev = s.kprev := rfl
@[simp] theorem State.setAwait_fault (s : State) (w : Option RegIdx) : (s.setAwait w).fault = s.fault := rfl
@[simp] theorem State.setAwait_keypad (s : State) (w : Option RegIdx) : (s.setAwait w).keypad = s.keypad := rfl
@[simp] theorem State.setAwait_inputs (s : State) (w : Option RegIdx) : (s.setAwait w).inputs = s.inputs := rfl
@[simp] theorem State.setAwait_draws (s : State) (w : Option RegIdx) : (s.setAwait w).draws = s.draws := rfl

/-! ## State.setRun -/

@[simp] theorem State.setRun_reg (s : State) (r : RunState) (y : RegIdx) : (s.setRun r).reg y = s.reg y := rfl
@[simp] theorem State.setRun_mem (s : State) (r : RunState) : (s.setRun r).mem = s.mem := rfl
@[simp] theorem State.setRun_v (s : State) (r : RunState) : (s.setRun r).v = s.v := rfl
@[simp] theorem State.setRun_i (s : State) (r : RunState) : (s.setRun r).i = s.i := rfl
@[simp] theorem State.setRun_pc (s : State) (r : RunState) : (s.setRun r).pc = s.pc := rfl
@[simp] theorem State.setRun_stack (s : State) (r : RunState) : (s.setRun r).stack = s.stack := rfl
@[simp] theorem State.setRun_sp (s : State) (r : RunState) : (s.setRun r).sp = s.sp := rfl
@[simp] theorem State.setRun_dt (s : State) (r : RunState) : (s.setRun r).dt = s.dt := rfl
@[simp] theorem State.setRun_st (s : State) (r : RunState) : (s.setRun r).st = s.st := rfl
@[simp] theorem State.setRun_fb (s : State) (r : RunState) : (s.setRun r).fb = s.fb := rfl
@[simp] theorem State.setRun_run (s : State) (r : RunState) : (s.setRun r).run = r := rfl
@[simp] theorem State.setRun_awaitKey (s : State) (r : RunState) : (s.setRun r).awaitKey = s.awaitKey := rfl
@[simp] theorem State.setRun_kprev (s : State) (r : RunState) : (s.setRun r).kprev = s.kprev := rfl
@[simp] theorem State.setRun_fault (s : State) (r : RunState) : (s.setRun r).fault = s.fault := rfl
@[simp] theorem State.setRun_keypad (s : State) (r : RunState) : (s.setRun r).keypad = s.keypad := rfl
@[simp] theorem State.setRun_inputs (s : State) (r : RunState) : (s.setRun r).inputs = s.inputs := rfl
@[simp] theorem State.setRun_draws (s : State) (r : RunState) : (s.setRun r).draws = s.draws := rfl

/-! ## State.setKprev -/

@[simp] theorem State.setKprev_reg (s : State) (k : KeySet) (y : RegIdx) : (s.setKprev k).reg y = s.reg y := rfl
@[simp] theorem State.setKprev_mem (s : State) (k : KeySet) : (s.setKprev k).mem = s.mem := rfl
@[simp] theorem State.setKprev_v (s : State) (k : KeySet) : (s.setKprev k).v = s.v := rfl
@[simp] theorem State.setKprev_i (s : State) (k : KeySet) : (s.setKprev k).i = s.i := rfl
@[simp] theorem State.setKprev_pc (s : State) (k : KeySet) : (s.setKprev k).pc = s.pc := rfl
@[simp] theorem State.setKprev_stack (s : State) (k : KeySet) : (s.setKprev k).stack = s.stack := rfl
@[simp] theorem State.setKprev_sp (s : State) (k : KeySet) : (s.setKprev k).sp = s.sp := rfl
@[simp] theorem State.setKprev_dt (s : State) (k : KeySet) : (s.setKprev k).dt = s.dt := rfl
@[simp] theorem State.setKprev_st (s : State) (k : KeySet) : (s.setKprev k).st = s.st := rfl
@[simp] theorem State.setKprev_fb (s : State) (k : KeySet) : (s.setKprev k).fb = s.fb := rfl
@[simp] theorem State.setKprev_run (s : State) (k : KeySet) : (s.setKprev k).run = s.run := rfl
@[simp] theorem State.setKprev_awaitKey (s : State) (k : KeySet) : (s.setKprev k).awaitKey = s.awaitKey := rfl
@[simp] theorem State.setKprev_kprev (s : State) (k : KeySet) : (s.setKprev k).kprev = k := rfl
@[simp] theorem State.setKprev_fault (s : State) (k : KeySet) : (s.setKprev k).fault = s.fault := rfl
@[simp] theorem State.setKprev_keypad (s : State) (k : KeySet) : (s.setKprev k).keypad = s.keypad := rfl
@[simp] theorem State.setKprev_inputs (s : State) (k : KeySet) : (s.setKprev k).inputs = s.inputs := rfl
@[simp] theorem State.setKprev_draws (s : State) (k : KeySet) : (s.setKprev k).draws = s.draws := rfl

/-! ## State.countDraw -/

@[simp] theorem State.countDraw_reg (s : State) (y : RegIdx) : (s.countDraw).reg y = s.reg y := rfl
@[simp] theorem State.countDraw_mem (s : State) : (s.countDraw).mem = s.mem := rfl
@[simp] theorem State.countDraw_v (s : State) : (s.countDraw).v = s.v := rfl
@[simp] theorem State.countDraw_i (s : State) : (s.countDraw).i = s.i := rfl
@[simp] theorem State.countDraw_pc (s : State) : (s.countDraw).pc = s.pc := rfl
@[simp] theorem State.countDraw_stack (s : State) : (s.countDraw).stack = s.stack := rfl
@[simp] theorem State.countDraw_sp (s : State) : (s.countDraw).sp = s.sp := rfl
@[simp] theorem State.countDraw_dt (s : State) : (s.countDraw).dt = s.dt := rfl
@[simp] theorem State.countDraw_st (s : State) : (s.countDraw).st = s.st := rfl
@[simp] theorem State.countDraw_fb (s : State) : (s.countDraw).fb = s.fb := rfl
@[simp] theorem State.countDraw_run (s : State) : (s.countDraw).run = s.run := rfl
@[simp] theorem State.countDraw_awaitKey (s : State) : (s.countDraw).awaitKey = s.awaitKey := rfl
@[simp] theorem State.countDraw_kprev (s : State) : (s.countDraw).kprev = s.kprev := rfl
@[simp] theorem State.countDraw_fault (s : State) : (s.countDraw).fault = s.fault := rfl
@[simp] theorem State.countDraw_keypad (s : State) : (s.countDraw).keypad = s.keypad := rfl
@[simp] theorem State.countDraw_inputs (s : State) : (s.countDraw).inputs = s.inputs := rfl
@[simp] theorem State.countDraw_draws (s : State) : (s.countDraw).draws = s.draws + 1 := rfl

/-! ## State.setStack -/

@[simp] theorem State.setStack_reg (s : State) (w : Vector Word 12) (d : Fin 13) (y : RegIdx) : (s.setStack w d).reg y = s.reg y := rfl
@[simp] theorem State.setStack_mem (s : State) (w : Vector Word 12) (d : Fin 13) : (s.setStack w d).mem = s.mem := rfl
@[simp] theorem State.setStack_v (s : State) (w : Vector Word 12) (d : Fin 13) : (s.setStack w d).v = s.v := rfl
@[simp] theorem State.setStack_i (s : State) (w : Vector Word 12) (d : Fin 13) : (s.setStack w d).i = s.i := rfl
@[simp] theorem State.setStack_pc (s : State) (w : Vector Word 12) (d : Fin 13) : (s.setStack w d).pc = s.pc := rfl
@[simp] theorem State.setStack_stack (s : State) (w : Vector Word 12) (d : Fin 13) : (s.setStack w d).stack = w := rfl
@[simp] theorem State.setStack_sp (s : State) (w : Vector Word 12) (d : Fin 13) : (s.setStack w d).sp = d := rfl
@[simp] theorem State.setStack_dt (s : State) (w : Vector Word 12) (d : Fin 13) : (s.setStack w d).dt = s.dt := rfl
@[simp] theorem State.setStack_st (s : State) (w : Vector Word 12) (d : Fin 13) : (s.setStack w d).st = s.st := rfl
@[simp] theorem State.setStack_fb (s : State) (w : Vector Word 12) (d : Fin 13) : (s.setStack w d).fb = s.fb := rfl
@[simp] theorem State.setStack_run (s : State) (w : Vector Word 12) (d : Fin 13) : (s.setStack w d).run = s.run := rfl
@[simp] theorem State.setStack_awaitKey (s : State) (w : Vector Word 12) (d : Fin 13) : (s.setStack w d).awaitKey = s.awaitKey := rfl
@[simp] theorem State.setStack_kprev (s : State) (w : Vector Word 12) (d : Fin 13) : (s.setStack w d).kprev = s.kprev := rfl
@[simp] theorem State.setStack_fault (s : State) (w : Vector Word 12) (d : Fin 13) : (s.setStack w d).fault = s.fault := rfl
@[simp] theorem State.setStack_keypad (s : State) (w : Vector Word 12) (d : Fin 13) : (s.setStack w d).keypad = s.keypad := rfl
@[simp] theorem State.setStack_inputs (s : State) (w : Vector Word 12) (d : Fin 13) : (s.setStack w d).inputs = s.inputs := rfl
@[simp] theorem State.setStack_draws (s : State) (w : Vector Word 12) (d : Fin 13) : (s.setStack w d).draws = s.draws := rfl

/-! ## State.setFlagged -/

@[simp] theorem State.setFlagged_mem (s : State) (x : RegIdx) (r f : Byte) : (s.setFlagged x r f).mem = s.mem := rfl
@[simp] theorem State.setFlagged_v (s : State) (x : RegIdx) (r f : Byte) : (s.setFlagged x r f).v = (s.v.set x r).set VF f := rfl
@[simp] theorem State.setFlagged_i (s : State) (x : RegIdx) (r f : Byte) : (s.setFlagged x r f).i = s.i := rfl
@[simp] theorem State.setFlagged_pc (s : State) (x : RegIdx) (r f : Byte) : (s.setFlagged x r f).pc = s.pc := rfl
@[simp] theorem State.setFlagged_stack (s : State) (x : RegIdx) (r f : Byte) : (s.setFlagged x r f).stack = s.stack := rfl
@[simp] theorem State.setFlagged_sp (s : State) (x : RegIdx) (r f : Byte) : (s.setFlagged x r f).sp = s.sp := rfl
@[simp] theorem State.setFlagged_dt (s : State) (x : RegIdx) (r f : Byte) : (s.setFlagged x r f).dt = s.dt := rfl
@[simp] theorem State.setFlagged_st (s : State) (x : RegIdx) (r f : Byte) : (s.setFlagged x r f).st = s.st := rfl
@[simp] theorem State.setFlagged_fb (s : State) (x : RegIdx) (r f : Byte) : (s.setFlagged x r f).fb = s.fb := rfl
@[simp] theorem State.setFlagged_run (s : State) (x : RegIdx) (r f : Byte) : (s.setFlagged x r f).run = s.run := rfl
@[simp] theorem State.setFlagged_awaitKey (s : State) (x : RegIdx) (r f : Byte) : (s.setFlagged x r f).awaitKey = s.awaitKey := rfl
@[simp] theorem State.setFlagged_kprev (s : State) (x : RegIdx) (r f : Byte) : (s.setFlagged x r f).kprev = s.kprev := rfl
@[simp] theorem State.setFlagged_fault (s : State) (x : RegIdx) (r f : Byte) : (s.setFlagged x r f).fault = s.fault := rfl
@[simp] theorem State.setFlagged_keypad (s : State) (x : RegIdx) (r f : Byte) : (s.setFlagged x r f).keypad = s.keypad := rfl
@[simp] theorem State.setFlagged_inputs (s : State) (x : RegIdx) (r f : Byte) : (s.setFlagged x r f).inputs = s.inputs := rfl
@[simp] theorem State.setFlagged_draws (s : State) (x : RegIdx) (r f : Byte) : (s.setFlagged x r f).draws = s.draws := rfl

/-! ## State.storeKey -/

@[simp] theorem State.storeKey_mem (s : State) (x : RegIdx) (k : Key) : (s.storeKey x k).mem = s.mem := rfl
@[simp] theorem State.storeKey_v (s : State) (x : RegIdx) (k : Key) : (s.storeKey x k).v = s.v.set x (BitVec.ofNat 8 k.val) := rfl
@[simp] theorem State.storeKey_i (s : State) (x : RegIdx) (k : Key) : (s.storeKey x k).i = s.i := rfl
@[simp] theorem State.storeKey_pc (s : State) (x : RegIdx) (k : Key) : (s.storeKey x k).pc = s.pc := rfl
@[simp] theorem State.storeKey_stack (s : State) (x : RegIdx) (k : Key) : (s.storeKey x k).stack = s.stack := rfl
@[simp] theorem State.storeKey_sp (s : State) (x : RegIdx) (k : Key) : (s.storeKey x k).sp = s.sp := rfl
@[simp] theorem State.storeKey_dt (s : State) (x : RegIdx) (k : Key) : (s.storeKey x k).dt = s.dt := rfl
@[simp] theorem State.storeKey_st (s : State) (x : RegIdx) (k : Key) : (s.storeKey x k).st = s.st := rfl
@[simp] theorem State.storeKey_fb (s : State) (x : RegIdx) (k : Key) : (s.storeKey x k).fb = s.fb := rfl
@[simp] theorem State.storeKey_run (s : State) (x : RegIdx) (k : Key) : (s.storeKey x k).run = s.run := rfl
@[simp] theorem State.storeKey_awaitKey (s : State) (x : RegIdx) (k : Key) : (s.storeKey x k).awaitKey = none := rfl
@[simp] theorem State.storeKey_kprev (s : State) (x : RegIdx) (k : Key) : (s.storeKey x k).kprev = s.kprev := rfl
@[simp] theorem State.storeKey_fault (s : State) (x : RegIdx) (k : Key) : (s.storeKey x k).fault = s.fault := rfl
@[simp] theorem State.storeKey_keypad (s : State) (x : RegIdx) (k : Key) : (s.storeKey x k).keypad = s.keypad := rfl
@[simp] theorem State.storeKey_inputs (s : State) (x : RegIdx) (k : Key) : (s.storeKey x k).inputs = s.inputs := rfl
@[simp] theorem State.storeKey_draws (s : State) (x : RegIdx) (k : Key) : (s.storeKey x k).draws = s.draws := rfl

/-! ## takeFault -/

@[simp] theorem takeFault_reg (s : State) (op : Option Word) (t : Trap) (y : RegIdx) : (takeFault s op t).reg y = s.reg y := rfl
@[simp] theorem takeFault_mem (s : State) (op : Option Word) (t : Trap) : (takeFault s op t).mem = s.mem := rfl
@[simp] theorem takeFault_v (s : State) (op : Option Word) (t : Trap) : (takeFault s op t).v = s.v := rfl
@[simp] theorem takeFault_i (s : State) (op : Option Word) (t : Trap) : (takeFault s op t).i = s.i := rfl
@[simp] theorem takeFault_pc (s : State) (op : Option Word) (t : Trap) : (takeFault s op t).pc = s.pc := rfl
@[simp] theorem takeFault_stack (s : State) (op : Option Word) (t : Trap) : (takeFault s op t).stack = s.stack := rfl
@[simp] theorem takeFault_sp (s : State) (op : Option Word) (t : Trap) : (takeFault s op t).sp = s.sp := rfl
@[simp] theorem takeFault_dt (s : State) (op : Option Word) (t : Trap) : (takeFault s op t).dt = s.dt := rfl
@[simp] theorem takeFault_st (s : State) (op : Option Word) (t : Trap) : (takeFault s op t).st = s.st := rfl
@[simp] theorem takeFault_fb (s : State) (op : Option Word) (t : Trap) : (takeFault s op t).fb = s.fb := rfl
@[simp] theorem takeFault_run (s : State) (op : Option Word) (t : Trap) : (takeFault s op t).run = .faulted := rfl
@[simp] theorem takeFault_awaitKey (s : State) (op : Option Word) (t : Trap) : (takeFault s op t).awaitKey = s.awaitKey := rfl
@[simp] theorem takeFault_kprev (s : State) (op : Option Word) (t : Trap) : (takeFault s op t).kprev = s.kprev := rfl
@[simp] theorem takeFault_fault (s : State) (op : Option Word) (t : Trap) : (takeFault s op t).fault = some ⟨t.cause, s.pc, op, t.address, t.value⟩ := rfl
@[simp] theorem takeFault_keypad (s : State) (op : Option Word) (t : Trap) : (takeFault s op t).keypad = s.keypad := rfl
@[simp] theorem takeFault_inputs (s : State) (op : Option Word) (t : Trap) : (takeFault s op t).inputs = s.inputs := rfl
@[simp] theorem takeFault_draws (s : State) (op : Option Word) (t : Trap) : (takeFault s op t).draws = s.draws := rfl

/-! ## decayTimers -/

@[simp] theorem decayTimers_reg (s : State) (y : RegIdx) : (decayTimers s).reg y = s.reg y := rfl
@[simp] theorem decayTimers_mem (s : State) : (decayTimers s).mem = s.mem := rfl
@[simp] theorem decayTimers_v (s : State) : (decayTimers s).v = s.v := rfl
@[simp] theorem decayTimers_i (s : State) : (decayTimers s).i = s.i := rfl
@[simp] theorem decayTimers_pc (s : State) : (decayTimers s).pc = s.pc := rfl
@[simp] theorem decayTimers_stack (s : State) : (decayTimers s).stack = s.stack := rfl
@[simp] theorem decayTimers_sp (s : State) : (decayTimers s).sp = s.sp := rfl
@[simp] theorem decayTimers_dt (s : State) : (decayTimers s).dt = countDown s.dt := rfl
@[simp] theorem decayTimers_st (s : State) : (decayTimers s).st = countDown s.st := rfl
@[simp] theorem decayTimers_fb (s : State) : (decayTimers s).fb = s.fb := rfl
@[simp] theorem decayTimers_run (s : State) : (decayTimers s).run = s.run := rfl
@[simp] theorem decayTimers_awaitKey (s : State) : (decayTimers s).awaitKey = s.awaitKey := rfl
@[simp] theorem decayTimers_kprev (s : State) : (decayTimers s).kprev = s.kprev := rfl
@[simp] theorem decayTimers_fault (s : State) : (decayTimers s).fault = s.fault := rfl
@[simp] theorem decayTimers_keypad (s : State) : (decayTimers s).keypad = s.keypad := rfl
@[simp] theorem decayTimers_inputs (s : State) : (decayTimers s).inputs = s.inputs := rfl
@[simp] theorem decayTimers_draws (s : State) : (decayTimers s).draws = s.draws := rfl

/-! ## latch -/

@[simp] theorem latch_reg (s : State) (y : RegIdx) : (latch s).reg y = s.reg y := rfl
@[simp] theorem latch_mem (s : State) : (latch s).mem = s.mem := rfl
@[simp] theorem latch_v (s : State) : (latch s).v = s.v := rfl
@[simp] theorem latch_i (s : State) : (latch s).i = s.i := rfl
@[simp] theorem latch_pc (s : State) : (latch s).pc = s.pc := rfl
@[simp] theorem latch_stack (s : State) : (latch s).stack = s.stack := rfl
@[simp] theorem latch_sp (s : State) : (latch s).sp = s.sp := rfl
@[simp] theorem latch_dt (s : State) : (latch s).dt = s.dt := rfl
@[simp] theorem latch_st (s : State) : (latch s).st = s.st := rfl
@[simp] theorem latch_fb (s : State) : (latch s).fb = s.fb := rfl
@[simp] theorem latch_run (s : State) : (latch s).run = s.run := rfl
@[simp] theorem latch_awaitKey (s : State) : (latch s).awaitKey = s.awaitKey := rfl
@[simp] theorem latch_kprev (s : State) : (latch s).kprev = s.kprev := rfl
@[simp] theorem latch_fault (s : State) : (latch s).fault = s.fault := rfl
@[simp] theorem latch_keypad (s : State) : (latch s).keypad = (nextInput s).keys := rfl
@[simp] theorem latch_inputs (s : State) : (latch s).inputs = s.inputs.tail := rfl
@[simp] theorem latch_draws (s : State) : (latch s).draws = s.draws := rfl

/-! ## togglePause -/

@[simp] theorem togglePause_reg (s : State) (y : RegIdx) : (togglePause s).reg y = s.reg y := rfl
@[simp] theorem togglePause_mem (s : State) : (togglePause s).mem = s.mem := rfl
@[simp] theorem togglePause_v (s : State) : (togglePause s).v = s.v := rfl
@[simp] theorem togglePause_i (s : State) : (togglePause s).i = s.i := rfl
@[simp] theorem togglePause_pc (s : State) : (togglePause s).pc = s.pc := rfl
@[simp] theorem togglePause_stack (s : State) : (togglePause s).stack = s.stack := rfl
@[simp] theorem togglePause_sp (s : State) : (togglePause s).sp = s.sp := rfl
@[simp] theorem togglePause_dt (s : State) : (togglePause s).dt = s.dt := rfl
@[simp] theorem togglePause_st (s : State) : (togglePause s).st = s.st := rfl
@[simp] theorem togglePause_fb (s : State) : (togglePause s).fb = s.fb := rfl
@[simp] theorem togglePause_run (s : State) : (togglePause s).run = if s.run = .running then .paused else .running := rfl
@[simp] theorem togglePause_awaitKey (s : State) : (togglePause s).awaitKey = s.awaitKey := rfl
@[simp] theorem togglePause_kprev (s : State) : (togglePause s).kprev = s.kprev := rfl
@[simp] theorem togglePause_fault (s : State) : (togglePause s).fault = s.fault := rfl
@[simp] theorem togglePause_keypad (s : State) : (togglePause s).keypad = s.keypad := rfl
@[simp] theorem togglePause_inputs (s : State) : (togglePause s).inputs = s.inputs := rfl
@[simp] theorem togglePause_draws (s : State) : (togglePause s).draws = s.draws := rfl

/-! ## endTick -/

@[simp] theorem endTick_reg (s : State) (y : RegIdx) : (endTick s).reg y = s.reg y := rfl
@[simp] theorem endTick_mem (s : State) : (endTick s).mem = s.mem := rfl
@[simp] theorem endTick_v (s : State) : (endTick s).v = s.v := rfl
@[simp] theorem endTick_i (s : State) : (endTick s).i = s.i := rfl
@[simp] theorem endTick_pc (s : State) : (endTick s).pc = s.pc := rfl
@[simp] theorem endTick_stack (s : State) : (endTick s).stack = s.stack := rfl
@[simp] theorem endTick_sp (s : State) : (endTick s).sp = s.sp := rfl
@[simp] theorem endTick_dt (s : State) : (endTick s).dt = countDown s.dt := rfl
@[simp] theorem endTick_st (s : State) : (endTick s).st = countDown s.st := rfl
@[simp] theorem endTick_fb (s : State) : (endTick s).fb = s.fb := rfl
@[simp] theorem endTick_run (s : State) : (endTick s).run = s.run := rfl
@[simp] theorem endTick_awaitKey (s : State) : (endTick s).awaitKey = s.awaitKey := rfl
@[simp] theorem endTick_kprev (s : State) : (endTick s).kprev = s.keypad := rfl
@[simp] theorem endTick_fault (s : State) : (endTick s).fault = s.fault := rfl
@[simp] theorem endTick_keypad (s : State) : (endTick s).keypad = s.keypad := rfl
@[simp] theorem endTick_inputs (s : State) : (endTick s).inputs = s.inputs := rfl
@[simp] theorem endTick_draws (s : State) : (endTick s).draws = s.draws := rfl

/-! ## The skip -/

theorem State.skipIf_true (s : State) : s.skipIf true = s.setPC (s.pc + 2) := rfl

theorem State.skipIf_false (s : State) : s.skipIf false = s := rfl

/-- A skip writes PC and nothing else (41_control R160). -/
theorem State.skipIf_eq (s : State) (c : Bool) : s.skipIf c = s.setPC (if c then s.pc + 2 else s.pc) := by
  cases c <;> rfl

/-- After the advance and a skip, PC is a + 4 or a + 2 (41_control R160). -/
theorem State.advance_skipIf (s : State) (c : Bool) :
    s.advance.skipIf c = s.setPC (if c then s.pc + 4 else s.pc + 2) := by
  cases c
  · rfl
  · simp only [State.skipIf, State.advance, State.setPC, if_true, BitVec.add_assoc]; rfl

end Sys2Proof.Machine
end

