-- ==== Sys2Proof/Laws/Ops.lean ====
section
/-! SUPPORT. Everything each shared operation over the stack, the keys, the timers and the register file can do
(41_control R161; 45_timers_keys R320, R330, R340; 43_index_memory R255, R256), and the two ends of an instruction that may fault. -/

namespace Sys2Proof.Machine

/-! ## The end of an instruction -/

@[simp] theorem complete_ok (i : Instr) (s t : State) : complete i s (.ok t) = .next t := rfl

@[simp] theorem complete_error (i : Instr) (s : State) (t : Trap) :
    complete i s (.error t) = .next (takeFault s (some (encode i)) t) := rfl

/-- An instruction always ends in a next state. -/
theorem complete_next (i : Instr) (s : State) (r : Except Trap State) : ∃ t, complete i s r = .next t := by
  cases r <;> exact ⟨_, rfl⟩

/-! ## Stack -/

theorem State.push_ok (s : State) (w : Word) (h : s.sp.val < 12) :
    s.push w = .ok (s.setStack (s.stack.set s.sp.val w) ⟨s.sp.val + 1, by omega⟩) := dif_pos h

theorem State.push_full (s : State) (w : Word) (h : ¬ s.sp.val < 12) :
    s.push w = .error ⟨.stackOverflow, none, none⟩ := dif_neg h

theorem State.pop_empty (s : State) (h : s.sp.val = 0) : s.pop = .error ⟨.stackUnderflow, none, none⟩ := dif_pos h

theorem State.pop_ok (s : State) (h : s.sp.val ≠ 0) :
    s.pop = .ok (s.stack[s.sp.val - 1]'(by have := s.sp.isLt; omega),
      s.setStack s.stack ⟨s.sp.val - 1, by have := s.sp.isLt; omega⟩) := dif_neg h

/-! ## Keys -/

theorem keyIndex_ok (b : Byte) (h : b.toNat < 16) : keyIndex b = .ok ⟨b.toNat, h⟩ := dif_pos h

theorem keyIndex_error (b : Byte) (h : ¬ b.toNat < 16) : keyIndex b = .error ⟨.badKeyIndex, none, some b⟩ := dif_neg h

/-- A key has a press edge when it is pressed now and was released before (45_timers_keys R332). -/
theorem mem_pressEdges (now before : KeySet) (k : Key) :
    k ∈ pressEdges now before ↔ pressed now k = true ∧ pressed before k = false := by
  simp [pressEdges]

/-- Everything a wait completion can do: with no press edge the state is as it was, else one key with an edge is stored, and
only the number of draws can differ besides (45_timers_keys R330). -/
theorem completeWait_cases (x : RegIdx) (s : State) :
    (pressEdges s.keypad s.kprev = [] ∧ completeWait x s = s) ∨
    ∃ k ∈ pressEdges s.keypad s.kprev, completeWait x s = s.storeKey x k ∨
      completeWait x s = s.countDraw.storeKey x k := by
  unfold completeWait
  split
  · next h => exact .inl ⟨h, rfl⟩
  · next k h => exact .inr ⟨k, by simp [h], .inl rfl⟩
  · next k l rest h =>
    refine .inr ⟨(k :: l :: rest).getD (Config.keyChoice s.draws % (rest.length + 2)) k, ?_, .inr rfl⟩
    have hlt : Config.keyChoice s.draws % (rest.length + 2) < (k :: l :: rest).length :=
      Nat.mod_lt _ (by omega)
    rw [h, List.getD_eq_getElem _ _ hlt]
    exact List.getElem_mem _

/-! ## Timers -/

/-- One timer's decrement with floor 0, on numbers (45_timers_keys R340). -/
theorem countDown_toNat (t : Byte) : (countDown t).toNat = t.toNat - 1 := by
  unfold countDown
  split
  · next h => subst h; rfl
  · next h =>
    have h0 : t.toNat ≠ 0 := fun e => h (BitVec.eq_of_toNat_eq (by simpa using e))
    have := t.isLt
    have h1 : (1 : Byte).toNat = 1 := rfl
    rw [BitVec.toNat_sub, h1]
    omega

/-! ## Register blocks -/

theorem State.regBlock_length (s : State) (x : RegIdx) : (s.regBlock x).length = x.val + 1 := by
  simp [State.regBlock]

theorem State.regBlock_getElem (s : State) (x : RegIdx) (k : Nat) (h : k < (s.regBlock x).length) :
    (s.regBlock x)[k] = s.reg ⟨k, by have := s.regBlock_length x; omega⟩ := by
  simp [State.regBlock, State.reg]

theorem overlayRegs_getElem (v : Vector Byte 16) (bs : List Byte) (r : RegIdx) :
    (overlayRegs v bs)[r] = bs.getD r.val v[r] := by
  simp [overlayRegs]

end Sys2Proof.Machine
end

