-- ==== Sys2Proof/Laws/Cycle.lean ====
section
/-! SUPPORT. What a fetch, a batch of one step and a tick can do (40_cycle R121, R122, R130, R136). -/

namespace Sys2Proof.Machine

/-- A fetch inside memory gives the word at PC (40_cycle R122). -/
theorem fetch_ok (s : State) (h : s.pc.toNat ≤ 0xFFE) : fetch s = .ok (wordAt s.mem s.pc.toNat) := by
  unfold fetch
  rw [memRead_ok (by omega), memRead_ok (by omega)]
  rfl

/-- A fetch that passes the end of memory faults at the lower offending address (40_cycle R122). -/
theorem fetch_error (s : State) (h : 0xFFE < s.pc.toNat) :
    fetch s = .error ⟨.memoryOutOfRange, some (max s.pc.toNat 0x1000), none⟩ := by
  unfold fetch
  by_cases h1 : 0xFFF < s.pc.toNat
  · rw [memRead_eq, if_pos h1, Nat.max_eq_left (by omega)]
  · rw [memRead_ok (by omega), memRead_eq, if_pos (by omega), Nat.max_eq_right (by omega)]
    have : s.pc.toNat + 1 = 0x1000 := by omega
    rw [this]

/-- Everything an instruction step can do (40_cycle R121). -/
theorem instrStep_cases (s : State) :
    (0xFFE < s.pc.toNat ∧
      instrStep s = .next (takeFault s none ⟨.memoryOutOfRange, some (max s.pc.toNat 0x1000), none⟩)) ∨
    (s.pc.toNat ≤ 0xFFE ∧ ∃ w, decode (wordAt s.mem s.pc.toNat) = .unimplemented w ∧
      instrStep s = .next (takeFault s (some w) ⟨.unimplementedOpcode, none, none⟩)) ∨
    (s.pc.toNat ≤ 0xFFE ∧ ∃ i, decode (wordAt s.mem s.pc.toNat) = .instr i ∧ instrStep s = exec i s) := by
  unfold instrStep
  by_cases h : 0xFFE < s.pc.toNat
  · left; rw [fetch_error s h]; exact ⟨h, rfl⟩
  · right
    rw [fetch_ok s (by omega)]
    cases hd : decode (wordAt s.mem s.pc.toNat) with
    | unimplemented w => exact .inl ⟨by omega, w, rfl, by simp [hd]⟩
    | instr i => exact .inr ⟨by omega, i, rfl, by simp [hd]⟩

/-- A batch of one step is that step (40_cycle R136). -/
theorem runBatch_one (s : State) : runBatch 1 s = instrStep s := by
  unfold runBatch
  cases h : instrStep s <;> simp [runBatch]

/-- A tick while run is Running or Paused is the live tick on the latched inputs (40_cycle R130). -/
theorem step_live (s : State) (h : s.run = .running ∨ s.run = .paused) :
    step s = liveTick 1 (nextInput s) (latch s) := by
  unfold step tick
  rcases h with h | h <;> rw [h]

/-- A tick with no control signal while Running does the tick's work (40_cycle R130). -/
theorem step_running (s : State) (h : s.run = .running) (hq : (nextInput s).quit = false)
    (hp : (nextInput s).pauseToggle = false) : step s = runningTick 1 (latch s) := by
  rw [step_live s (.inl h)]
  simp [liveTick, hq, hp, h]

end Sys2Proof.Machine
end

