-- ==== Sys2Proof/Laws/Display.lean ====
section
/-! SUPPORT. What the framebuffer operations do to each cell (44_display R290 to R293). -/

namespace Sys2Proof.Machine

@[simp] theorem cell_clearFB (x : Col) (y : Row) : cell clearFB x y = false := by
  simp [cell, clearFB]

/-- The framebuffer after one flip: that cell inverted, every other cell as before. -/
theorem cell_flipCell (fb : Framebuffer) (x x' : Col) (y y' : Row) :
    cell (flipCell fb x y) x' y' = if x' = x ∧ y' = y then !(cell fb x y) else cell fb x' y' := by
  unfold cell flipCell
  by_cases hy : y' = y
  · subst hy
    by_cases hx : x' = x
    · subst hx; simp [cell]
    · have : x.val ≠ x'.val := fun e => hx (Fin.ext e.symm)
      simp [hx, Vector.getElem_set_ne _ _ this]
  · have : y.val ≠ y'.val := fun e => hy (Fin.ext e.symm)
    simp [hy, Vector.getElem_set_ne _ _ this]

theorem plot_fb (c : Canvas) (x : Col) (y : Row) : (plot c x y).fb = flipCell c.fb x y := rfl

theorem plot_hit (c : Canvas) (x : Col) (y : Row) : (plot c x y).hit = (c.hit || cell c.fb x y) := rfl

end Sys2Proof.Machine
end

