-- ==== Sys2Proof/Laws/PerInstr.lean ====
section
/-! SUPPORT. One statement per instruction: its own row of the opcode map, found by its mnemonic, selects its encoding
(30_encoding R93, R94). -/

namespace Sys2Proof.Laws.RowSelects

/-- A row with the instruction's mnemonic is in the opcode map and selects the instruction's word. -/
def Statement (i : Instr) : Prop :=
  ∃ r ∈ OpcodeRow.all, r.mnemonic = i.mnemonic ∧ r.selects (encode i) = true

/-- The statement from the row itself. -/
theorem of_row {i : Instr} (r : OpcodeRow) (hr : r ∈ OpcodeRow.all) (hm : r.mnemonic = i.mnemonic)
    (hs : encode i &&& r.mask = r.pattern) : Statement i :=
  ⟨r, hr, hm, by simp [OpcodeRow.selects, hs]⟩

theorem keep_NNN (f : Nibble) (nnn : Addr12) : wordNNN f nnn &&& 0xF000 = wordNNN f 0 := by
  rw [mask_family, familyOf_wordNNN]

theorem keep_XNN (f : Nibble) (x : RegIdx) (nn : Byte) : wordXNN f x nn &&& 0xF000 = wordNNN f 0 := by
  rw [mask_family, familyOf_wordXNN]

theorem keep_XYN (f : Nibble) (x y : RegIdx) (n : Nibble) : wordXYN f x y n &&& 0xF000 = wordNNN f 0 := by
  rw [mask_family, familyOf_wordXYN]

theorem keep_XYN_sub (f : Nibble) (x y : RegIdx) (n : Nibble) : wordXYN f x y n &&& 0xF00F = wordXYN f 0 0 n := by
  rw [mask_familyN, familyOf_wordXYN, fieldN_wordXYN]

theorem keep_XNN_sub (f : Nibble) (x : RegIdx) (nn : Byte) : wordXNN f x nn &&& 0xF0FF = wordXNN f 0 nn := by
  rw [mask_familyNN, familyOf_wordXNN, fieldNN_wordXNN]

theorem cls : Statement .cls := of_row ⟨"CLS", 0xFFFF, 0x00E0⟩ (by simp [OpcodeRow.all, OpcodeRow.family0]) rfl rfl

theorem ret : Statement .ret := of_row ⟨"RET", 0xFFFF, 0x00EE⟩ (by simp [OpcodeRow.all, OpcodeRow.family0]) rfl rfl

theorem jp (nnn : Addr12) : Statement (.jp nnn) :=
  of_row ⟨"JP", 0xF000, 0x1000⟩ (by simp [OpcodeRow.all, OpcodeRow.byFamily]) rfl (keep_NNN _ _)

theorem call (nnn : Addr12) : Statement (.call nnn) :=
  of_row ⟨"CALL", 0xF000, 0x2000⟩ (by simp [OpcodeRow.all, OpcodeRow.byFamily]) rfl (keep_NNN _ _)

theorem seImm (x : RegIdx) (nn : Byte) : Statement (.seImm x nn) :=
  of_row ⟨"SE_imm", 0xF000, 0x3000⟩ (by simp [OpcodeRow.all, OpcodeRow.byFamily]) rfl (keep_XNN _ _ _)

theorem sneImm (x : RegIdx) (nn : Byte) : Statement (.sneImm x nn) :=
  of_row ⟨"SNE_imm", 0xF000, 0x4000⟩ (by simp [OpcodeRow.all, OpcodeRow.byFamily]) rfl (keep_XNN _ _ _)

theorem seReg (x : RegIdx) (y : RegIdx) : Statement (.seReg x y) :=
  of_row ⟨"SE_reg", 0xF00F, 0x5000⟩ (by simp [OpcodeRow.all, OpcodeRow.byN]) rfl (keep_XYN_sub _ _ _ _)

theorem ldImm (x : RegIdx) (nn : Byte) : Statement (.ldImm x nn) :=
  of_row ⟨"LD_imm", 0xF000, 0x6000⟩ (by simp [OpcodeRow.all, OpcodeRow.byFamily]) rfl (keep_XNN _ _ _)

theorem addImm (x : RegIdx) (nn : Byte) : Statement (.addImm x nn) :=
  of_row ⟨"ADD_imm", 0xF000, 0x7000⟩ (by simp [OpcodeRow.all, OpcodeRow.byFamily]) rfl (keep_XNN _ _ _)

theorem ldReg (x : RegIdx) (y : RegIdx) : Statement (.ldReg x y) :=
  of_row ⟨"LD_reg", 0xF00F, 0x8000⟩ (by simp [OpcodeRow.all, OpcodeRow.byN]) rfl (keep_XYN_sub _ _ _ _)

theorem orReg (x : RegIdx) (y : RegIdx) : Statement (.orReg x y) :=
  of_row ⟨"OR", 0xF00F, 0x8001⟩ (by simp [OpcodeRow.all, OpcodeRow.byN]) rfl (keep_XYN_sub _ _ _ _)

theorem andReg (x : RegIdx) (y : RegIdx) : Statement (.andReg x y) :=
  of_row ⟨"AND", 0xF00F, 0x8002⟩ (by simp [OpcodeRow.all, OpcodeRow.byN]) rfl (keep_XYN_sub _ _ _ _)

theorem xorReg (x : RegIdx) (y : RegIdx) : Statement (.xorReg x y) :=
  of_row ⟨"XOR", 0xF00F, 0x8003⟩ (by simp [OpcodeRow.all, OpcodeRow.byN]) rfl (keep_XYN_sub _ _ _ _)

theorem addReg (x : RegIdx) (y : RegIdx) : Statement (.addReg x y) :=
  of_row ⟨"ADD_reg", 0xF00F, 0x8004⟩ (by simp [OpcodeRow.all, OpcodeRow.byN]) rfl (keep_XYN_sub _ _ _ _)

theorem subReg (x : RegIdx) (y : RegIdx) : Statement (.subReg x y) :=
  of_row ⟨"SUB", 0xF00F, 0x8005⟩ (by simp [OpcodeRow.all, OpcodeRow.byN]) rfl (keep_XYN_sub _ _ _ _)

theorem shr (x : RegIdx) (y : RegIdx) : Statement (.shr x y) :=
  of_row ⟨"SHR", 0xF00F, 0x8006⟩ (by simp [OpcodeRow.all, OpcodeRow.byN]) rfl (keep_XYN_sub _ _ _ _)

theorem subnReg (x : RegIdx) (y : RegIdx) : Statement (.subnReg x y) :=
  of_row ⟨"SUBN", 0xF00F, 0x8007⟩ (by simp [OpcodeRow.all, OpcodeRow.byN]) rfl (keep_XYN_sub _ _ _ _)

theorem shl (x : RegIdx) (y : RegIdx) : Statement (.shl x y) :=
  of_row ⟨"SHL", 0xF00F, 0x800E⟩ (by simp [OpcodeRow.all, OpcodeRow.byN]) rfl (keep_XYN_sub _ _ _ _)

theorem sneReg (x : RegIdx) (y : RegIdx) : Statement (.sneReg x y) :=
  of_row ⟨"SNE_reg", 0xF00F, 0x9000⟩ (by simp [OpcodeRow.all, OpcodeRow.byN]) rfl (keep_XYN_sub _ _ _ _)

theorem ldI (nnn : Addr12) : Statement (.ldI nnn) :=
  of_row ⟨"LD_I", 0xF000, 0xA000⟩ (by simp [OpcodeRow.all, OpcodeRow.byFamily]) rfl (keep_NNN _ _)

theorem jpV0 (nnn : Addr12) : Statement (.jpV0 nnn) :=
  of_row ⟨"JP_V0", 0xF000, 0xB000⟩ (by simp [OpcodeRow.all, OpcodeRow.byFamily]) rfl (keep_NNN _ _)

theorem rnd (x : RegIdx) (nn : Byte) : Statement (.rnd x nn) :=
  of_row ⟨"RND", 0xF000, 0xC000⟩ (by simp [OpcodeRow.all, OpcodeRow.byFamily]) rfl (keep_XNN _ _ _)

theorem drw (x : RegIdx) (y : RegIdx) (n : Nibble) : Statement (.drw x y n) :=
  of_row ⟨"DRW", 0xF000, 0xD000⟩ (by simp [OpcodeRow.all, OpcodeRow.byFamily]) rfl (keep_XYN _ _ _ _)

theorem skp (x : RegIdx) : Statement (.skp x) :=
  of_row ⟨"SKP", 0xF0FF, 0xE09E⟩ (by simp [OpcodeRow.all, OpcodeRow.byNN]) rfl (keep_XNN_sub _ _ _)

theorem sknp (x : RegIdx) : Statement (.sknp x) :=
  of_row ⟨"SKNP", 0xF0FF, 0xE0A1⟩ (by simp [OpcodeRow.all, OpcodeRow.byNN]) rfl (keep_XNN_sub _ _ _)

theorem ldVxDT (x : RegIdx) : Statement (.ldVxDT x) :=
  of_row ⟨"LD_Vx_DT", 0xF0FF, 0xF007⟩ (by simp [OpcodeRow.all, OpcodeRow.byNN]) rfl (keep_XNN_sub _ _ _)

theorem ldVxK (x : RegIdx) : Statement (.ldVxK x) :=
  of_row ⟨"LD_Vx_K", 0xF0FF, 0xF00A⟩ (by simp [OpcodeRow.all, OpcodeRow.byNN]) rfl (keep_XNN_sub _ _ _)

theorem ldDTVx (x : RegIdx) : Statement (.ldDTVx x) :=
  of_row ⟨"LD_DT_Vx", 0xF0FF, 0xF015⟩ (by simp [OpcodeRow.all, OpcodeRow.byNN]) rfl (keep_XNN_sub _ _ _)

theorem ldSTVx (x : RegIdx) : Statement (.ldSTVx x) :=
  of_row ⟨"LD_ST_Vx", 0xF0FF, 0xF018⟩ (by simp [OpcodeRow.all, OpcodeRow.byNN]) rfl (keep_XNN_sub _ _ _)

theorem addI (x : RegIdx) : Statement (.addI x) :=
  of_row ⟨"ADD_I", 0xF0FF, 0xF01E⟩ (by simp [OpcodeRow.all, OpcodeRow.byNN]) rfl (keep_XNN_sub _ _ _)

theorem ldF (x : RegIdx) : Statement (.ldF x) :=
  of_row ⟨"LD_F", 0xF0FF, 0xF029⟩ (by simp [OpcodeRow.all, OpcodeRow.byNN]) rfl (keep_XNN_sub _ _ _)

theorem ldB (x : RegIdx) : Statement (.ldB x) :=
  of_row ⟨"LD_B", 0xF0FF, 0xF033⟩ (by simp [OpcodeRow.all, OpcodeRow.byNN]) rfl (keep_XNN_sub _ _ _)

theorem ldMemStore (x : RegIdx) : Statement (.ldMemStore x) :=
  of_row ⟨"LD_mem_store", 0xF0FF, 0xF055⟩ (by simp [OpcodeRow.all, OpcodeRow.byNN]) rfl (keep_XNN_sub _ _ _)

theorem ldMemLoad (x : RegIdx) : Statement (.ldMemLoad x) :=
  of_row ⟨"LD_mem_load", 0xF0FF, 0xF065⟩ (by simp [OpcodeRow.all, OpcodeRow.byNN]) rfl (keep_XNN_sub _ _ _)

end Sys2Proof.Laws.RowSelects
end

