-- ==== Sys2Proof/Machine/Assembly.lean ====
section
/-! DEFINITION. The assembly text of an instruction (30_encoding R93, R110). It is a name with no semantics (00_scope R18;
92_eei D20; log 19), and nothing in the machine uses it. There are no pseudo-instructions (30_encoding R111). -/

namespace Sys2Proof

/-- One hex digit, 0 to F (30_encoding R110). -/
def hexDigit (n : Nat) : String := String.singleton ("0123456789ABCDEF".toList.getD (n % 16) '0')

/-- A register operand, `V` and one hex digit (30_encoding R110). -/
def regText (x : RegIdx) : String := "V" ++ hexDigit x.val

/-- The 8-bit operand `byte`, as 00_scope R9 writes a hexadecimal number. -/
def byteText (b : Byte) : String := "0x" ++ hexDigit (b.toNat / 16) ++ hexDigit b.toNat

/-- The 12-bit operand `addr`, as 00_scope R9 writes a hexadecimal number. -/
def addrText (a : Addr12) : String :=
  "0x" ++ hexDigit (a.toNat / 256) ++ hexDigit (a.toNat / 16) ++ hexDigit a.toNat

/-- The operand `nibble`, in decimal. -/
def nibbleText (n : Nibble) : String := toString n.toNat

/-- A mnemonic with one operand. -/
def text1 (mnemonic a : String) : String := mnemonic ++ " " ++ a

/-- A mnemonic with two operands, separated by a comma and a space (30_encoding R110). -/
def text2 (mnemonic a b : String) : String := text1 mnemonic a ++ ", " ++ b

/-- The instruction column of 30_encoding R93 with the operands filled in; SHR and SHL are written with both registers. -/
def Instr.text : Instr → String
  | .cls => "CLS"
  | .ret => "RET"
  | .jp nnn => text1 "JP" (addrText nnn)
  | .call nnn => text1 "CALL" (addrText nnn)
  | .seImm x nn => text2 "SE" (regText x) (byteText nn)
  | .sneImm x nn => text2 "SNE" (regText x) (byteText nn)
  | .seReg x y => text2 "SE" (regText x) (regText y)
  | .ldImm x nn => text2 "LD" (regText x) (byteText nn)
  | .addImm x nn => text2 "ADD" (regText x) (byteText nn)
  | .ldReg x y => text2 "LD" (regText x) (regText y)
  | .orReg x y => text2 "OR" (regText x) (regText y)
  | .andReg x y => text2 "AND" (regText x) (regText y)
  | .xorReg x y => text2 "XOR" (regText x) (regText y)
  | .addReg x y => text2 "ADD" (regText x) (regText y)
  | .subReg x y => text2 "SUB" (regText x) (regText y)
  | .shr x y => text2 "SHR" (regText x) (regText y)
  | .subnReg x y => text2 "SUBN" (regText x) (regText y)
  | .shl x y => text2 "SHL" (regText x) (regText y)
  | .sneReg x y => text2 "SNE" (regText x) (regText y)
  | .ldI nnn => text2 "LD" "I" (addrText nnn)
  | .jpV0 nnn => text2 "JP" "V0" (addrText nnn)
  | .rnd x nn => text2 "RND" (regText x) (byteText nn)
  | .drw x y n => text2 "DRW" (regText x) (regText y) ++ ", " ++ nibbleText n
  | .skp x => text1 "SKP" (regText x)
  | .sknp x => text1 "SKNP" (regText x)
  | .ldVxDT x => text2 "LD" (regText x) "DT"
  | .ldVxK x => text2 "LD" (regText x) "K"
  | .ldDTVx x => text2 "LD" "DT" (regText x)
  | .ldSTVx x => text2 "LD" "ST" (regText x)
  | .addI x => text2 "ADD" "I" (regText x)
  | .ldF x => text2 "LD" "F" (regText x)
  | .ldB x => text2 "LD" "B" (regText x)
  | .ldMemStore x => text2 "LD" "[I]" (regText x)
  | .ldMemLoad x => text2 "LD" (regText x) "[I]"

/-- `SHR Vx` with the second register left out: it fills Y with 0 (30_encoding R110; 92_eei D20). -/
def Instr.shrShort (x : RegIdx) : Instr := .shr x 0

/-- `SHL Vx` with the second register left out: it fills Y with 0 (30_encoding R110; 92_eei D20). -/
def Instr.shlShort (x : RegIdx) : Instr := .shl x 0

end Sys2Proof
end

