-- ==== Sys2Proof/Tests/Slice0.lean ====
section
/-! SUPPORT. The model's own tests: ill-formed words, one decoded word per instruction, vectors of 95_test_vectors on single
steps, and for each statement with hypotheses a state that meets them, at the boundaries of its clauses. -/

namespace Sys2Proof.Tests

open Sys2Proof.Machine

/-! ## Helpers -/

/-- The next state of an outcome; the reset state where there is none. -/
def stateOf : Host.Outcome State Fault Refusal → State
  | .next t => t
  | .fault _ => State.reset
  | .refused _ => State.reset

/-- The outcome is a next state. -/
def isNext : Host.Outcome State Fault Refusal → Bool
  | .next _ => true
  | .fault _ => false
  | .refused _ => false

theorem eq_next {o : Host.Outcome State Fault Refusal} (h : isNext o = true) : o = .next (stateOf o) := by
  cases o
  · rfl
  · cases h
  · cases h

/-- The state after an instruction on a state. -/
def run (i : Instr) (s : State) : State := stateOf (exec i s)

/-- The reset state. -/
def s0 : State := State.reset

/-- The reset state with registers set. -/
def regs (l : List (RegIdx × Byte)) : State := l.foldl (fun s p => s.setReg p.1 p.2) s0

/-- A state with bytes put into memory from an address up. -/
def bytesAt (s : State) (a : Nat) (bs : List Byte) : State := s.setMem (Memory.putBytes s.mem a bs)

/-- A state with one cell lit. -/
def lit (s : State) (x : Col) (y : Row) : State := s.setFB (flipCell s.fb x y)

/-- A state with one tick input pending. -/
def input (s : State) (keys : KeySet) (quit pause : Bool) : State := { s with inputs := [⟨keys, quit, pause⟩] }

/-- The cells of a list that are lit. -/
def litOf (s : State) (l : List (Col × Row)) : List Bool := l.map fun p => cell s.fb p.1 p.2

/-- How many cells are lit. -/
def litCount (s : State) : Nat := ((s.fb.toList.map fun r => (r.toList.filter id).length)).sum

/-! ## Ill-formed words: each family's check refuses (30_encoding R95 to R99; 95_test_vectors 2.1) -/

theorem test_illFormed_family0 : wellFormedWord 0x0123 = false ∧ decode 0x0123 = .unimplemented 0x0123 := by decide
theorem test_illFormed_family0_near : wellFormedWord 0x00E1 = false ∧ decode 0x00FF = .unimplemented 0x00FF := by decide
theorem test_illFormed_family5 : wellFormedWord 0x5121 = false ∧ decode 0x5121 = .unimplemented 0x5121 := by decide
theorem test_illFormed_family8 : wellFormedWord 0x8128 = false ∧ decode 0x812F = .unimplemented 0x812F := by decide
theorem test_illFormed_family9 : wellFormedWord 0x9AB3 = false ∧ decode 0x9AB3 = .unimplemented 0x9AB3 := by decide
theorem test_illFormed_familyE : wellFormedWord 0xE19F = false ∧ decode 0xE1A2 = .unimplemented 0xE1A2 := by decide
theorem test_illFormed_familyF : wellFormedWord 0xF100 = false ∧ decode 0xFFFF = .unimplemented 0xFFFF := by decide
theorem test_truncated : decodeBytes [0x60] = .error .truncated := by decide

/-! ## One word per instruction, written out from its pattern (30_encoding R93) -/

theorem test_decode_cls : decode 0b0000000011100000 = .instr .cls := by decide
theorem test_decode_ret : decode 0b0000000011101110 = .instr .ret := by decide
theorem test_decode_jp : decode 0b0001101010111100 = .instr (.jp 0xABC) := by decide
theorem test_decode_call : decode 0b0010001100000000 = .instr (.call 0x300) := by decide
theorem test_decode_seImm : decode 0b0011101001000010 = .instr (.seImm 0xA 0x42) := by decide
theorem test_decode_sneImm : decode 0b0100101001000010 = .instr (.sneImm 0xA 0x42) := by decide
theorem test_decode_seReg : decode 0b0101101010110000 = .instr (.seReg 0xA 0xB) := by decide
theorem test_decode_ldImm : decode 0b0110000000000101 = .instr (.ldImm 0 0x05) := by decide
theorem test_decode_addImm : decode 0b0111111100000101 = .instr (.addImm 0xF 0x05) := by decide
theorem test_decode_ldReg : decode 0b1000000011110000 = .instr (.ldReg 0 0xF) := by decide
theorem test_decode_orReg : decode 0b1000000100100001 = .instr (.orReg 1 2) := by decide
theorem test_decode_andReg : decode 0b1000000100100010 = .instr (.andReg 1 2) := by decide
theorem test_decode_xorReg : decode 0b1000000100100011 = .instr (.xorReg 1 2) := by decide
theorem test_decode_addReg : decode 0b1000111100010100 = .instr (.addReg 0xF 1) := by decide
theorem test_decode_subReg : decode 0b1000000000010101 = .instr (.subReg 0 1) := by decide
theorem test_decode_shr : decode 0b1000000111110110 = .instr (.shr 1 0xF) := by decide
theorem test_decode_subnReg : decode 0b1000000100100111 = .instr (.subnReg 1 2) := by decide
theorem test_decode_shl : decode 0b1000000100001110 = .instr (.shl 1 0) := by decide
theorem test_decode_sneReg : decode 0b1001101010110000 = .instr (.sneReg 0xA 0xB) := by decide
theorem test_decode_ldI : decode 0b1010001011110000 = .instr (.ldI 0x2F0) := by decide
theorem test_decode_jpV0 : decode 0b1011001100000000 = .instr (.jpV0 0x300) := by decide
theorem test_decode_rnd : decode 0b1100001100001111 = .instr (.rnd 3 0x0F) := by decide
theorem test_decode_drw : decode 0b1101000100100101 = .instr (.drw 1 2 5) := by decide
theorem test_decode_skp : decode 0b1110001010011110 = .instr (.skp 2) := by decide
theorem test_decode_sknp : decode 0b1110001010100001 = .instr (.sknp 2) := by decide
theorem test_decode_ldVxDT : decode 0b1111001100000111 = .instr (.ldVxDT 3) := by decide
theorem test_decode_ldVxK : decode 0b1111001100001010 = .instr (.ldVxK 3) := by decide
theorem test_decode_ldDTVx : decode 0b1111000100010101 = .instr (.ldDTVx 1) := by decide
theorem test_decode_ldSTVx : decode 0b1111000100011000 = .instr (.ldSTVx 1) := by decide
theorem test_decode_addI : decode 0b1111001000011110 = .instr (.addI 2) := by decide
theorem test_decode_ldF : decode 0b1111010100101001 = .instr (.ldF 5) := by decide
theorem test_decode_ldB : decode 0b1111001100110011 = .instr (.ldB 3) := by decide
theorem test_decode_ldMemStore : decode 0b1111000101010101 = .instr (.ldMemStore 1) := by decide
theorem test_decode_ldMemLoad : decode 0b1111000101100101 = .instr (.ldMemLoad 1) := by decide
theorem test_tableWord : decodeTableWord 16 0xD015 = some (.drw 0 1 5) := by decide

/-! ## Control transfer (95_test_vectors 2.2) -/

/-- V-CALL-1: the twelfth call succeeds. -/
theorem test_call_twelfth : let t := run (.call 0x400) { s0 with sp := 11 }
    (t.pc, t.sp, t.stack[11], t.run) = (0x400, 12, 0x202, .running) := by decide

/-- V-CALL-2: the thirteenth faults and pushes nothing. -/
theorem test_call_overflow : let t := run (.call 0x400) { s0 with sp := 12 }
    (t.run, t.sp, t.pc) = (.faulted, 12, 0x200) ∧ t.fault = some ⟨.stackOverflow, 0x200, some 0x2400, none, none⟩ := by decide

/-- V-RET-1: the slot keeps its value. -/
theorem test_ret : let t := run .ret { s0 with pc := 0x300, sp := 1, stack := s0.stack.set 0 0x206 }
    (t.pc, t.sp, t.stack[0]) = (0x206, 0, 0x206) := by decide

/-- V-RET-2. -/
theorem test_ret_underflow : let t := run .ret s0
    (t.run, t.pc) = (.faulted, 0x200) ∧ t.fault = some ⟨.stackUnderflow, 0x200, some 0x00EE, none, none⟩ := by decide

/-- V-JP-3: an odd target is no fault. -/
theorem test_jp_odd : (run (.jp 0x201) s0).pc = 0x201 := by decide

/-- V-SE-1 and V-SE-2. -/
theorem test_seImm : (run (.seImm 0xA 0x42) (regs [(0xA, 0x42)])).pc = 0x204 ∧
    (run (.seImm 0xA 0x42) (regs [(0xA, 0x41)])).pc = 0x202 := by decide

/-- V-SNE-1 and V-SNE-2. -/
theorem test_sneImm : (run (.sneImm 0xA 0x42) (regs [(0xA, 0x41)])).pc = 0x204 ∧
    (run (.sneImm 0xA 0x42) (regs [(0xA, 0x42)])).pc = 0x202 := by decide

/-- V-SER-2 and V-SER-3. -/
theorem test_seReg : (run (.seReg 0xA 0xB) (regs [(0xA, 7), (0xB, 8)])).pc = 0x202 ∧
    (run (.seReg 3 3) (regs [(3, 9)])).pc = 0x204 := by decide

/-- V-SNER-1 and V-SNER-3. -/
theorem test_sneReg : (run (.sneReg 0xA 0xB) (regs [(0xA, 7), (0xB, 8)])).pc = 0x204 ∧
    (run (.sneReg 3 3) (regs [(3, 9)])).pc = 0x202 := by decide

/-- V-BNNN-2: no wrap, no mask, no fault at the jump. -/
theorem test_jpV0_beyond : let t := run (.jpV0 0xFFF) (regs [(0, 0xFF)])
    (t.pc, t.run) = (0x10FE, .running) := by decide

/-! ## ALU (95_test_vectors 2.3) -/

/-- V-LD-1. -/
theorem test_ldImm : (run (.ldImm 0xA 0xFF) s0).reg 0xA = 0xFF := by decide

/-- V-ADDI-1: VF stays. -/
theorem test_addImm_noFlag : let t := run (.addImm 0 0x01) (regs [(0, 0xFF), (VF, 1)])
    (t.reg 0, t.reg VF) = (0, 1) := by decide

/-- V-MOV-1. -/
theorem test_ldReg : (run (.ldReg 0 0xF) (regs [(VF, 0x33)])).reg 0 = 0x33 := by decide

/-- V-OR-1: VF stays. -/
theorem test_orReg : let t := run (.orReg 0 1) (regs [(0, 0xF0), (1, 0x0F), (VF, 1)])
    (t.reg 0, t.reg VF) = (0xFF, 1) := by decide

/-- V-AND-1. -/
theorem test_andReg : let t := run (.andReg 0 1) (regs [(0, 0xF0), (1, 0x3C), (VF, 1)])
    (t.reg 0, t.reg VF) = (0x30, 1) := by decide

/-- V-XOR-1. -/
theorem test_xorReg : let t := run (.xorReg 0 1) (regs [(0, 0xF0), (1, 0x3C), (VF, 1)])
    (t.reg 0, t.reg VF) = (0xCC, 1) := by decide

/-- V-ADD-2: a sum of exactly 256. -/
theorem test_addReg_256 : let t := run (.addReg 0 1) (regs [(0, 0x80), (1, 0x80)])
    (t.reg 0, t.reg VF) = (0, 1) := by decide

/-- V-ADD-4: with X = F the flag wins. -/
theorem test_addReg_VF : (run (.addReg 0xF 1) (regs [(VF, 0xFF), (1, 0x01)])).reg VF = 1 := by decide

/-- V-SUB-1. -/
theorem test_subReg_borrow : let t := run (.subReg 0 1) (regs [(0, 0x01), (1, 0x02)])
    (t.reg 0, t.reg VF) = (0xFF, 0) := by decide

/-- V-SUB-3: equal operands do not borrow. -/
theorem test_subReg_equal : let t := run (.subReg 0 1) (regs [(0, 0x42), (1, 0x42)])
    (t.reg 0, t.reg VF) = (0, 1) := by decide

/-- V-DEC-14: Y is ignored. -/
theorem test_shr_ignoresY : let t := run (.shr 1 0xF) (regs [(1, 0x05), (VF, 0x70)])
    (t.reg 1, t.reg VF) = (0x02, 1) := by decide

/-- V-SHR-3: with X = F the flag wins. -/
theorem test_shr_VF : (run (.shr 0xF 0) (regs [(VF, 0x03)])).reg VF = 1 := by decide

/-- V-SUBN-1. -/
theorem test_subnReg : let t := run (.subnReg 1 2) (regs [(1, 0x02), (2, 0x01)])
    (t.reg 1, t.reg VF) = (0xFF, 0) := by decide

/-- V-SUBN-4: the flag compares the old VF. -/
theorem test_subnReg_VF : (run (.subnReg 0xF 1) (regs [(VF, 0x01), (1, 0x03)])).reg VF = 1 := by decide

/-- V-SHL-1. -/
theorem test_shl : let t := run (.shl 1 0) (regs [(1, 0x81)])
    (t.reg 1, t.reg VF) = (0x02, 1) := by decide

/-- V-SHL-3: with X = F the flag wins. -/
theorem test_shl_VF : (run (.shl 0xF 0) (regs [(VF, 0x80)])).reg VF = 1 := by decide

/-- V-RND-2: a mask of 0 gives 0 for every byte drawn. -/
theorem test_rnd_maskZero : (run (.rnd 3 0x00) (regs [(3, 9)])).reg 3 = 0 := by
  simp [run, stateOf, exec, execRnd]

/-- V-RND-3: a mask of 0xFF gives the byte drawn. -/
theorem test_rnd_maskFull : (run (.rnd 3 0xFF) s0).reg 3 = Config.drawByte 0 := by
  have h : ∀ b : Byte, b &&& 0xFF#8 = b := by decide
  simp [run, stateOf, exec, execRnd, h, s0, State.reset]

/-! ## Index and memory (95_test_vectors 2.4) -/

/-- V-LDI-1. -/
theorem test_ldI : (run (.ldI 0x2F0) s0).i = 0x02F0 := by decide

/-- V-ADDIX-2: not masked to 12 bits, VF stays. -/
theorem test_addI_past12 : let t := run (.addI 2) ((regs [(2, 1), (VF, 7)]).setI 0x0FFF)
    (t.i, t.reg VF) = (0x1000, 7) := by decide

/-- V-ADDIX-3: mod 2^16. -/
theorem test_addI_wraps : (run (.addI 2) ((regs [(2, 1)]).setI 0xFFFF)).i = 0 := by decide

/-- V-LDF-2: the high nibble is ignored. -/
theorem test_ldF : (run (.ldF 5) (regs [(5, 0x3A)])).i = 0x0032 := by decide

/-- V-BCD-1. -/
theorem test_ldB : let t := run (.ldB 3) ((regs [(3, 0xFE)]).setI 0x300)
    (t.mem.read 0x300, t.mem.read 0x301, t.mem.read 0x302, t.i) = (2, 5, 4, 0x300) := by decide

/-- V-BCD-8: a fault on the third byte leaves the first two unwritten. -/
theorem test_ldB_fault : let t := run (.ldB 3) ((regs [(3, 1)]).setI 0xFFE)
    (t.mem, t.pc) = ([], 0x200) ∧ t.fault = some ⟨.memoryOutOfRange, 0x200, some 0xF333, some 0x1000, none⟩ := by decide

/-- V-STR-2: sixteen bytes, VF last. -/
theorem test_ldMemStore : let t := run (.ldMemStore 0xF) ((regs [(0, 1), (1, 2), (VF, 0x10)]).setI 0xFF0)
    (t.mem.read 0xFF0, t.mem.read 0xFF1, t.mem.read 0xFFF, t.i) = (1, 2, 0x10, 0xFF0) := by decide

/-- V-STR-4. -/
theorem test_ldMemStore_font : (run (.ldMemStore 0) (s0.setI 0x04F)).fault =
    some ⟨.fontRegionWrite, 0x200, some 0xF055, some 0x04F, none⟩ := by decide

/-- V-LDR-2: the font may be read. -/
theorem test_ldMemLoad_font : let t := run (.ldMemLoad 4) s0
    (t.reg 0, t.reg 1, t.reg 2, t.reg 3, t.reg 4, t.i) = (0xF0, 0x90, 0x90, 0x90, 0xF0, 0) := by decide

/-- V-LDR-5: nothing is loaded. -/
theorem test_ldMemLoad_fault : let t := run (.ldMemLoad 2) ((regs [(0, 9), (1, 9)]).setI 0xFFE)
    (t.reg 0, t.reg 1) = (9, 9) ∧ t.fault = some ⟨.memoryOutOfRange, 0x200, some 0xF265, some 0x1000, none⟩ := by decide

/-! ## Framebuffer (95_test_vectors 2.5) -/

/-- V-CLS-1. -/
theorem test_cls : litCount (run .cls (lit (lit s0 0 0) 63 31)) = 0 := by decide

/-- V-DXY-2: glyph 0 lights its 14 cells. -/
theorem test_drw_glyph : let t := run (.drw 0 1 5) s0
    (litCount t, litOf t [(0, 0), (3, 0), (0, 1), (1, 1), (3, 1), (3, 4), (4, 4)], t.reg VF) =
      (14, [true, true, true, false, true, true, false], 0) := by decide

/-- V-DXY-4: wrap in both directions. -/
theorem test_drw_wrap : let t := run (.drw 0 1 2) (bytesAt ((regs [(0, 63), (1, 31)]).setI 0x300) 0x300 [0xC0, 0xC0])
    (litCount t, litOf t [(63, 31), (0, 31), (63, 0), (0, 0)]) = (4, [true, true, true, true]) := by decide

/-! ## Keypad and timers (95_test_vectors 2.6) -/

/-- V-SKP-1. -/
theorem test_skp : (run (.skp 2) { regs [(2, 5)] with keypad := 0x0020 }).pc = 0x204 := by decide

/-- V-SKP-3. -/
theorem test_skp_badKey : (run (.skp 2) (regs [(2, 0x10)])).fault =
    some ⟨.badKeyIndex, 0x200, some 0xE29E, none, some 0x10⟩ := by decide

/-- V-SKNP-1. -/
theorem test_sknp : (run (.sknp 2) (regs [(2, 5)])).pc = 0x204 := by decide

/-- V-SKNP-3. -/
theorem test_sknp_badKey : (run (.sknp 2) (regs [(2, 0xFF)])).fault =
    some ⟨.badKeyIndex, 0x200, some 0xE2A1, none, some 0xFF⟩ := by decide

/-- V-LDDT-1. -/
theorem test_ldVxDT : (run (.ldVxDT 3) { s0 with dt := 0x3C }).reg 3 = 0x3C := by decide

/-- V-LDK-1. -/
theorem test_ldVxK : let t := run (.ldVxK 3) s0
    (t.awaitKey, t.pc, t.reg 3) = (some 3, 0x202, 0) := by decide

/-- V-SDT-1: the tick's decay applies to the new value. -/
theorem test_ldDTVx : (stateOf (step ((regs [(1, 0x3C)]).withFetchWord 16 0xF115))).dt = 0x3B := by decide

/-- V-SST-2: a one-tick sound is never seen. -/
theorem test_ldSTVx : let t := stateOf (step ((regs [(1, 0x01)]).withFetchWord 16 0xF118))
    (t.st, t.outputs.soundOn) = (0, false) := by decide

/-! ## Ticks (95_test_vectors W1, W8, W9, 2.2, 2.7) -/

/-- W1: an empty program faults on the word 0x0000 in its first tick. -/
theorem test_emptyProgram : (stateOf (step s0)).fault =
    some ⟨.unimplementedOpcode, 0x200, some 0, none, none⟩ := by decide

/-- V-FETCH-1 and V-FETCH-3. -/
theorem test_fetch_beyond : (stateOf (step { s0 with pc := 0xFFF })).fault =
      some ⟨.memoryOutOfRange, 0xFFF, none, some 0x1000, none⟩ ∧
    (stateOf (step { s0 with pc := 0x10FE })).fault =
      some ⟨.memoryOutOfRange, 0x10FE, none, some 0x10FE, none⟩ := by decide

/-- W8, tick 2: an edge on key 5 is stored and nothing is fetched. -/
theorem test_wait_edge : let t := stateOf (step (input { s0 with pc := 0x202, awaitKey := some 3 } 0x0020 false false))
    (t.reg 3, t.awaitKey, t.pc, t.kprev) = (5, none, 0x202, 0x0020) := by decide

/-- W8, second trace: a held key is no edge. -/
theorem test_wait_held : let s := { s0 with pc := 0x202, awaitKey := some 3, kprev := 0x0020 }
    (stateOf (step (input s 0x0020 false false))).awaitKey = some 3 := by decide

/-- W9: with four steps a tick the timers still decay once. -/
theorem test_fourSteps_oneDecay :
    let s := bytesAt { s0 with dt := 5 } 0x200 [0x70, 1, 0x70, 1, 0x70, 1, 0x70, 1, 0x70, 1]
    let t := stateOf (tick 4 s)
    (t.reg 0, t.pc, t.dt) = (4, 0x208, 4) := by decide

/-- VT-3: quit wins over pause. -/
theorem test_quit_wins : let t := stateOf (step (input (s0.withFetchWord 16 0x7001) 0 true true))
    (t.run, t.reg 0, t.pc) = (.stopped, 0, 0x200) := by decide

/-- VT-2, tick 3: the tick that resumes runs its step and decays. -/
theorem test_resume_runs :
    let s := { (s0.withFetchWord 16 0x7001) with run := .paused, dt := 5, inputs := [⟨0, false, true⟩] }
    let t := stateOf (step s)
    (t.run, t.reg 0, t.pc, t.dt) = (.running, 1, 0x202, 4) := by decide

/-- VT-5, tick 2: a faulting tick neither decays nor updates Kprev. -/
theorem test_fault_tick : let t := stateOf (step (input { s0 with dt := 6 } 0x0002 false false))
    (t.run, t.dt, t.kprev) = (.faulted, 6, 0) := by decide

/-! ## States that meet the hypotheses of the statements -/

theorem witness_load_longest : (List.replicate 3584 (0 : Byte)).length ≤ 3584 ∧
    3584 < (List.replicate 3585 (0 : Byte)).length := by
  rw [List.length_replicate, List.length_replicate]
  omega

theorem witness_firstStep : decode (wordAt (Memory.putBytes [] 0x200 [0x12, 0x04]) 0x200) = .instr (.jp 0x204) := by decide

theorem witness_word_kinds : wellFormedWord 0x8014 = true ∧ wellFormedWord 0x8018 = false := by decide

theorem witness_rowSelects : (⟨"RND", 0xF000, 0xC000⟩ : OpcodeRow) ∈ OpcodeRow.all ∧
    (⟨"RND", 0xF000, 0xC000⟩ : OpcodeRow).selects 0xC3FF = true := by decide

theorem witness_subDispatched : (0x00E0 : Word).toNat / 4096 = 0 ∧ (0x5120 : Word).toNat / 4096 = 5 ∧
    (0x9AB3 : Word).toNat / 4096 = 9 ∧ (0x800E : Word).toNat / 4096 = 8 ∧ (0xE0A1 : Word).toNat / 4096 = 0xE ∧
    (0xFF65 : Word).toNat / 4096 = 0xF ∧ decode 0x800D = .unimplemented 0x800D := by decide

theorem witness_fetch_edges : ({ s0 with pc := 0xFFE } : State).pc.toNat ≤ 0xFFE ∧
    ({ s0 with pc := 0xFFF } : State).stepsNext ∧ 0xFFE < ({ s0 with pc := 0xFFF } : State).pc.toNat ∧
    0xFFE < ({ s0 with pc := 0x1000 } : State).pc.toNat := by decide

theorem witness_unimplementedWord : s0.stepsNext ∧ s0.pc.toNat ≤ 0xFFE ∧
    wellFormedWord (wordAt s0.mem s0.pc.toNat) = false := by decide

theorem witness_traps : trapOf (.ldMemStore 0xF) (s0.setI 0xFF0) = none ∧
    trapOf (.ldMemStore 0xF) (s0.setI 0xFF1) = some ⟨.memoryOutOfRange, some 0x1000, none⟩ ∧
    trapOf (.ldB 0) (s0.setI 0x04F) = some ⟨.fontRegionWrite, some 0x04F, none⟩ ∧
    trapOf (.ldB 0) (s0.setI 0x050) = none ∧ trapOf (.drw 0 0 0) (s0.setI 0xFFFF) = none ∧
    trapOf (.drw 0 0 1) (s0.setI 0xFFFF) = some ⟨.memoryOutOfRange, some 0xFFFF, none⟩ := by decide

theorem witness_fetches : (s0.withFetchWord 16 0x8014).fetches (.addReg 0 1) := by decide

theorem witness_writesOnly : trapOf (.addReg 0 1) s0 = none ∧ isNext (exec (.addReg 0 1) s0) = true := by decide

theorem witness_unitsChange :
    (stateOf (step (s0.withFetchWord 16 0xD015))).fb ≠ s0.fb ∧
    (stateOf (step (s0.withFetchWord 16 0x2300))).sp ≠ s0.sp ∧
    (stateOf (step (s0.withFetchWord 16 0xA123))).i ≠ s0.i ∧
    (stateOf (step (((regs [(0, 7)]).setI 0x300).withFetchWord 16 0xF055))).mem ≠
      (((regs [(0, 7)]).setI 0x300).withFetchWord 16 0xF055).mem := by decide

theorem witness_terminal : ({ s0 with run := .stopped } : State).run = .stopped ∧
    (stateOf (step s0)).run = .faulted := by decide

theorem witness_quit : (nextInput (input s0 0 true false)).quit = true ∧
    ({ (input s0 0 true false) with run := .paused } : State).run = .paused := by decide

theorem witness_pause : (nextInput ({ s0 with run := .paused } : State)).pauseToggle = false ∧
    (nextInput (input s0 0 false true)).pauseToggle = true ∧ (nextInput (input s0 0 false true)).quit = false ∧
    (input s0 0 false true).run = .running := by decide

theorem witness_resume : let s := { (input s0 0 false true) with run := .paused }
    s.run = .paused ∧ (nextInput s).quit = false ∧ (nextInput s).pauseToggle = true := by decide

theorem witness_tickIsNext : isNext (tick 0 s0) = true ∧ isNext (tick 3 s0) = true := by decide

theorem witness_waiting : let s := input { s0 with awaitKey := some 3 } 0x0208 false false
    s.run = .running ∧ s.awaitKey = some 3 ∧ (nextInput s).quit = false ∧ (nextInput s).pauseToggle = false ∧
      pressed (nextInput s).keys 9 = true ∧ pressed s.kprev 9 = false := by decide

theorem witness_waiting_noEdge : let s := ({ s0 with awaitKey := some 3, kprev := 0xFFFF } : State)
    ∀ k : Key, ¬ (pressed (nextInput s).keys k = true ∧ pressed s.kprev k = false) := by decide

theorem witness_decay : s0.stepsNext ∧ (stateOf (runBatch 0 (latch s0))).run ≠ .faulted ∧
    (stateOf (runBatch 1 (latch s0))).run = .faulted ∧ isNext (runBatch 1 (latch s0)) = true := by decide

theorem witness_kprev : (stateOf (tick 1 (s0.withFetchWord 16 0x1200))).run = .running ∧
    (stateOf (tick 1 s0)).run ≠ .running := by decide

theorem witness_invariants : s0.mem.wf ∧ s0.pcBounded ∧ s0.faultRecorded ∧ isNext (step s0) = true := by decide

theorem witness_pcBound_met : ({ s0 with pc := 0x10FE } : State).pcBounded ∧ (stateOf (step s0)).faultRecorded := by decide

theorem witness_font : isNext (load Config.initRam (some [0x12, 0x00])) = true := by
  rfl

theorem witness_ret : ({ s0 with sp := 1 } : State).sp.val = (0 : Fin 12).val + 1 ∧
    ({ s0 with sp := 12 } : State).sp.val = (11 : Fin 12).val + 1 ∧ s0.sp = 0 := by decide

theorem witness_call : s0.sp.val = (0 : Fin 12).val ∧ ({ s0 with sp := 11 } : State).sp.val = (11 : Fin 12).val ∧
    ({ s0 with sp := 12 } : State).sp = 12 := by decide

theorem witness_skipsOnRegisters : (0x5121 : Word).toNat / 4096 = 5 ∧ (0x5121 : Word).toNat % 16 ≠ 0 := by decide

theorem witness_returnUndoesCall : let t := run (.call 0x300) s0
    s0.sp.val = (0 : Fin 12).val ∧ isNext (exec (.call 0x300) s0) = true ∧ t.sp = t.sp ∧ t.stack[0] = t.stack[0] := by decide

theorem witness_notVF : (0 : RegIdx) ≠ VF := by decide

theorem witness_bcd : 0x050 ≤ (s0.setI 0x050).i.toNat ∧ (s0.setI 0xFFD).i.toNat + 2 ≤ 0xFFF ∧
    0x050 ≤ (s0.setI 0xFFD).i.toNat ∧ (s0.setI 0x050).i.toNat + 2 ≤ 0xFFF := by decide

theorem witness_store : 0x050 ≤ (s0.setI 0xFF0).i.toNat ∧ (s0.setI 0xFF0).i.toNat + (15 : RegIdx).val ≤ 0xFFF := by decide

theorem witness_load : (s0.setI 0xFF0).i.toNat + (15 : RegIdx).val ≤ 0xFFF ∧
    0xFFF < (s0.setI 0xFF1).i.toNat + (15 : RegIdx).val := by decide

theorem witness_storedBytes : let s := s0.setI 0x20A
    let t := run (.ldMemStore 1) s
    let u := { t with pc := 0x20A }
    0x050 ≤ s.i.toNat ∧ s.i.toNat + (1 : RegIdx).val ≤ 0xFFF ∧ (1 : RegIdx).val = (0 : RegIdx).val + 1 ∧
      isNext (exec (.ldMemStore 1) s) = true ∧ u.mem = t.mem ∧ u.pc.toNat = s.effAddr (0 : RegIdx).val := by decide

theorem witness_draw : (0x0 : Nibble).toNat = 0 ∧ (s0.setI 0xFF1).i.toNat + (0xF : Nibble).toNat ≤ 0x1000 := by decide

theorem witness_drawTwice : let t := run (.drw 0 1 5) s0
    let u := { t with pc := 0x200 }
    s0.i.toNat + (5 : Nibble).toNat ≤ 0x1000 ∧ isNext (exec (.drw 0 1 5) s0) = true ∧ u.fb = t.fb ∧ u.i = s0.i ∧
      u.mem = s0.mem ∧ u.reg 0 = s0.reg 0 ∧ u.reg 1 = s0.reg 1 ∧ isNext (exec (.drw 0 1 5) u) = true := by decide

theorem witness_drawUnlit (px : Col) (py : Row) : cell s0.fb px py = false := cell_clearFB px py

theorem witness_key : ((regs [(2, 0xF)]).reg 2).toNat ≤ 0xF := by decide

theorem witness_setTimers : (s0.withFetchWord 16 0xF115).fetches (.ldDTVx 1) ∧
    (s0.withFetchWord 16 0xF118).fetches (.ldSTVx 1) := by decide

/-! ## Assembly text (the listings of 95_test_vectors) -/

theorem test_text_ldImm : (Instr.ldImm 0x0 0x05).text = "LD V0, 0x05" := by decide

theorem test_text_jp : (Instr.jp 0x204).text = "JP 0x204" := by decide

theorem test_text_drw : (Instr.drw 0 1 5).text = "DRW V0, V1, 5" := by decide

theorem test_text_load : (Instr.ldMemLoad 2).text = "LD V2, [I]" := by decide

/-- The omitted register of SHR fills Y with 0 (92_eei D20). -/
theorem test_shrShort_encodes : encode (Instr.shrShort 0xA) = 0x8A06 := by decide

end Sys2Proof.Tests
end

section
namespace Sys2Proof.Machine

/-- Settles O11: a fetch inside memory gives `wordAt` PC, the two bytes joined high byte first (20_memory R66). -/
theorem fetchIsBigEndian : Obligations.FetchIsBigEndian := by
  intro s hpc
  exact ⟨wordAt s.mem s.pc.toNat, fetch_ok s hpc, bigEndian_toNat _ _⟩

end Sys2Proof.Machine
end

section
/-! The decoder and the opcode map on the fields of a word: what each family's own check accepts, what each row selects, and
that the two agree (30_encoding R91, R94 to R99, R103). -/

namespace Sys2Proof

/-! ## The fields as numbers -/

theorem familyOf_toNat (op : Word) : (familyOf op).toNat = op.toNat / 4096 := by
  have h := op.isLt
  rw [familyOf, BitVec.extractLsb'_toNat, Nat.shiftRight_eq_div_pow]
  omega

theorem fieldN_toNat (op : Word) : (fieldN op).toNat = op.toNat % 16 := by
  simp [fieldN]

theorem fieldNN_toNat (op : Word) : (fieldNN op).toNat = op.toNat % 256 := by
  simp [fieldNN]

theorem familyOf_eq_iff (op : Word) (f : Nibble) : familyOf op = f ↔ op.toNat / 4096 = f.toNat := by
  rw [← familyOf_toNat, BitVec.toNat_inj]

/-- The families whose every word is an instruction: the mask of their row keeps the family alone (30_encoding R94). -/
def plainFamilies : List Nibble := [0x1, 0x2, 0x3, 0x4, 0x6, 0x7, 0xA, 0xB, 0xC, 0xD]

/-- The plain families and the six that are sub-dispatched (30_encoding R94 to R99). -/
theorem family_cases (f : Nibble) :
    f ∈ plainFamilies ∨ f = 0x0 ∨ (f = 0x5 ∨ f = 0x9) ∨ f = 0x8 ∨ f = 0xE ∨ f = 0xF := by
  revert f
  decide

/-! ## The decoder, family by family -/

/-- A check with an instruction behind it accepts what it tests and what the checks after it accept. -/
theorem ite_instr_iff {c : Prop} [Decidable c] (i : Instr) (d : Decoded) :
    (∃ j, (if c then .instr i else d) = Decoded.instr j) ↔ c ∨ ∃ j, d = .instr j := by
  by_cases hc : c <;> simp [hc]

theorem instr_of_plain_family {op : Word} (h : familyOf op ∈ plainFamilies) : ∃ i, decode op = .instr i := by
  simp only [plainFamilies, List.mem_cons, List.not_mem_nil, or_false] at h
  rcases h with h | h | h | h | h | h | h | h | h | h <;> simp [decode, h]

theorem instr_iff_of_family0 {op : Word} (h : familyOf op = 0x0) :
    (∃ i, decode op = .instr i) ↔ op = 0x00E0 ∨ op = 0x00EE := by
  simp [decode, h, decodeFamily0, ite_instr_iff]

theorem instr_iff_of_family5_or_9 {op : Word} (h : familyOf op = 0x5 ∨ familyOf op = 0x9) :
    (∃ i, decode op = .instr i) ↔ fieldN op = 0x0 := by
  rcases h with h | h <;> simp [decode, h, decodeNZero, ite_instr_iff]

theorem instr_iff_of_family8 {op : Word} (h : familyOf op = 0x8) :
    (∃ i, decode op = .instr i) ↔ fieldN op ∈ ([0x0, 0x1, 0x2, 0x3, 0x4, 0x5, 0x6, 0x7, 0xE] : List Nibble) := by
  simp [decode, h, decodeFamily8, ite_instr_iff]

theorem instr_iff_of_familyE {op : Word} (h : familyOf op = 0xE) :
    (∃ i, decode op = .instr i) ↔ fieldNN op ∈ ([0x9E, 0xA1] : List Byte) := by
  simp [decode, h, decodeFamilyE, ite_instr_iff]

theorem instr_iff_of_familyF {op : Word} (h : familyOf op = 0xF) :
    (∃ i, decode op = .instr i) ↔
      fieldNN op ∈ ([0x07, 0x0A, 0x15, 0x18, 0x1E, 0x29, 0x33, 0x55, 0x65] : List Byte) := by
  simp [decode, h, decodeFamilyF, ite_instr_iff]

/-! ## A word that is no instruction is reported as itself -/

/-- A check with an instruction behind it reports a word only where the checks after it do. -/
theorem ite_unimplemented_iff {c : Prop} [Decidable c] (i : Instr) (d : Decoded) (w : Word) :
    (if c then .instr i else d) = Decoded.unimplemented w ↔ ¬ c ∧ d = .unimplemented w := by
  by_cases hc : c <;> simp [hc]

theorem eq_of_decode_unimplemented {op w : Word} : decode op = .unimplemented w → w = op := by
  rcases family_cases (familyOf op) with h | h | h | h | h | h
  · obtain ⟨i, hi⟩ := instr_of_plain_family h
    simp [hi]
  · simp +contextual [decode, h, decodeFamily0, ite_unimplemented_iff]
  · rcases h with h | h <;> simp +contextual [decode, h, decodeNZero, ite_unimplemented_iff]
  · simp +contextual [decode, h, decodeFamily8, ite_unimplemented_iff]
  · simp +contextual [decode, h, decodeFamilyE, ite_unimplemented_iff]
  · simp +contextual [decode, h, decodeFamilyF, ite_unimplemented_iff]

/-- What the decoder does not read as an instruction it reports as that word (30_encoding R101, R105). -/
theorem decode_unimplemented_of_not_instr {op : Word} (h : ¬ ∃ i, decode op = .instr i) :
    decode op = .unimplemented op := by
  cases hd : decode op with
  | instr i => exact absurd ⟨i, hd⟩ h
  | unimplemented w => rw [eq_of_decode_unimplemented hd]

/-! ## The rows of the opcode map as conditions on the fields -/

theorem byFamily_rows : ∀ r ∈ OpcodeRow.byFamily, r.mask = 0xF000 ∧ r.pattern = wordNNN (familyOf r.pattern) 0 := by
  decide

theorem byN_rows : ∀ r ∈ OpcodeRow.byN,
    r.mask = 0xF00F ∧ r.pattern = wordXYN (familyOf r.pattern) 0 0 (fieldN r.pattern) := by
  decide

theorem byNN_rows : ∀ r ∈ OpcodeRow.byNN,
    r.mask = 0xF0FF ∧ r.pattern = wordXNN (familyOf r.pattern) 0 (fieldNN r.pattern) := by
  decide

theorem selects_iff (r : OpcodeRow) (op : Word) : r.selects op = true ↔ op &&& r.mask = r.pattern := by
  simp [OpcodeRow.selects]

theorem byFamily_selects_iff {r : OpcodeRow} (hr : r ∈ OpcodeRow.byFamily) (op : Word) :
    r.selects op = true ↔ familyOf r.pattern = familyOf op := by
  obtain ⟨hm, hp⟩ := byFamily_rows r hr
  rw [selects_iff, hm]
  refine ⟨fun h => (familyOf_of_mask h).symm, fun h => ?_⟩
  rw [mask_family, ← h, ← hp]

theorem byN_selects_iff {r : OpcodeRow} (hr : r ∈ OpcodeRow.byN) (op : Word) :
    r.selects op = true ↔ (familyOf r.pattern, fieldN r.pattern) = (familyOf op, fieldN op) := by
  obtain ⟨hm, hp⟩ := byN_rows r hr
  rw [selects_iff, hm, Prod.mk.injEq]
  refine ⟨fun h => (fields_of_maskN h).imp Eq.symm Eq.symm, fun ⟨hf, hn⟩ => ?_⟩
  rw [mask_familyN, ← hf, ← hn, ← hp]

theorem byNN_selects_iff {r : OpcodeRow} (hr : r ∈ OpcodeRow.byNN) (op : Word) :
    r.selects op = true ↔ (familyOf r.pattern, fieldNN r.pattern) = (familyOf op, fieldNN op) := by
  obtain ⟨hm, hp⟩ := byNN_rows r hr
  rw [selects_iff, hm, Prod.mk.injEq]
  refine ⟨fun h => (fields_of_maskNN h).imp Eq.symm Eq.symm, fun ⟨hf, hn⟩ => ?_⟩
  rw [mask_familyNN, ← hf, ← hn, ← hp]

theorem family0_any_iff (op : Word) :
    (∃ r ∈ OpcodeRow.family0, r.selects op = true) ↔ familyOf op = 0x0 ∧ (op = 0x00E0 ∨ op = 0x00EE) := by
  have hfam : op = 0x00E0 ∨ op = 0x00EE → familyOf op = 0x0 := by
    rintro (rfl | rfl) <;> rfl
  have hmask : op &&& 0xFFFF = op := BitVec.and_allOnes
  simp only [OpcodeRow.family0, List.exists_mem_cons_iff, selects_iff, hmask, List.not_mem_nil, false_and,
    exists_false, or_false]
  exact ⟨fun h => ⟨hfam h, h⟩, And.right⟩

theorem byFamily_any_iff (op : Word) :
    (∃ r ∈ OpcodeRow.byFamily, r.selects op = true) ↔
      familyOf op ∈ OpcodeRow.byFamily.map fun r => familyOf r.pattern := by
  rw [List.mem_map]
  exact exists_congr fun r => and_congr_right fun hr => byFamily_selects_iff hr op

theorem byN_any_iff (op : Word) :
    (∃ r ∈ OpcodeRow.byN, r.selects op = true) ↔
      (familyOf op, fieldN op) ∈ OpcodeRow.byN.map fun r => (familyOf r.pattern, fieldN r.pattern) := by
  rw [List.mem_map]
  exact exists_congr fun r => and_congr_right fun hr => byN_selects_iff hr op

theorem byNN_any_iff (op : Word) :
    (∃ r ∈ OpcodeRow.byNN, r.selects op = true) ↔
      (familyOf op, fieldNN op) ∈ OpcodeRow.byNN.map fun r => (familyOf r.pattern, fieldNN r.pattern) := by
  rw [List.mem_map]
  exact exists_congr fun r => and_congr_right fun hr => byNN_selects_iff hr op

/-- The opcode map read on the fields: the four parts of 30_encoding R94, each with what its masks keep. -/
theorem wellFormedWord_iff (op : Word) : wellFormedWord op = true ↔
    (familyOf op = 0x0 ∧ (op = 0x00E0 ∨ op = 0x00EE)) ∨
    familyOf op ∈ plainFamilies ∨
    (familyOf op, fieldN op) ∈ ([(0x5, 0x0), (0x9, 0x0), (0x8, 0x0), (0x8, 0x1), (0x8, 0x2), (0x8, 0x3), (0x8, 0x4),
      (0x8, 0x5), (0x8, 0x6), (0x8, 0x7), (0x8, 0xE)] : List (Nibble × Nibble)) ∨
    (familyOf op, fieldNN op) ∈ ([(0xE, 0x9E), (0xE, 0xA1), (0xF, 0x07), (0xF, 0x0A), (0xF, 0x15), (0xF, 0x18),
      (0xF, 0x1E), (0xF, 0x29), (0xF, 0x33), (0xF, 0x55), (0xF, 0x65)] : List (Nibble × Byte)) := by
  rw [wellFormedWord, List.any_eq_true]
  simp only [OpcodeRow.all, List.mem_append, or_and_right, exists_or, or_assoc]
  rw [family0_any_iff, byFamily_any_iff, byN_any_iff, byNN_any_iff]
  rfl

/-- The decoder reads an instruction from exactly the words that some row of the opcode map selects. -/
theorem instr_iff_wellFormedWord (op : Word) : (∃ i, decode op = .instr i) ↔ wellFormedWord op = true := by
  rw [wellFormedWord_iff]
  rcases family_cases (familyOf op) with h | h | h | h | h | h
  · exact iff_of_true (instr_of_plain_family h) (.inr (.inl h))
  · rw [instr_iff_of_family0 h]
    simp [h, plainFamilies]
  · rw [instr_iff_of_family5_or_9 h]
    rcases h with h | h <;> simp [h, plainFamilies]
  · rw [instr_iff_of_family8 h]
    simp [h, plainFamilies]
  · rw [instr_iff_of_familyE h]
    simp [h, plainFamilies]
  · rw [instr_iff_of_familyF h]
    simp [h, plainFamilies]

end Sys2Proof
end

section
namespace Sys2Proof.Machine

/-- Settles O7: the decoder and the opcode map accept the same words, and a word that is no instruction is reported as it is
(30_encoding R101, R103). -/
theorem wordIsInstructionOrUnimplemented : Obligations.WordIsInstructionOrUnimplemented := by
  refine ⟨rfl, fun op => ⟨(instr_iff_wellFormedWord op).mpr, fun hw => decode_unimplemented_of_not_instr fun hi => ?_⟩⟩
  rw [(instr_iff_wellFormedWord op).mp hi] at hw
  contradiction

/-- Settles O9: each sub-dispatched family's check, with its fields read as numbers (30_encoding R95 to R99). -/
theorem subDispatchedFamilies : Obligations.SubDispatchedFamilies := by
  intro op
  refine ⟨fun h => ?_, fun h => ?_, fun h => ?_, fun h => ?_, fun h => ?_, decode_unimplemented_of_not_instr⟩
  · rw [instr_iff_of_family0 ((familyOf_eq_iff op _).mpr h)]
    simp [BitVec.toNat_eq]
  · rw [instr_iff_of_family5_or_9 (h.imp (familyOf_eq_iff op _).mpr (familyOf_eq_iff op _).mpr), ← fieldN_toNat]
    simp [BitVec.toNat_eq]
  · rw [instr_iff_of_family8 ((familyOf_eq_iff op _).mpr h), ← fieldN_toNat]
    simp [BitVec.toNat_eq]
  · rw [instr_iff_of_familyE ((familyOf_eq_iff op _).mpr h), ← fieldNN_toNat]
    simp [BitVec.toNat_eq]
  · rw [instr_iff_of_familyF ((familyOf_eq_iff op _).mpr h), ← fieldNN_toNat]
    simp [BitVec.toNat_eq]

end Sys2Proof.Machine
end

section
/-! What a tick does in a terminal run state (40_cycle R141, R142). -/

namespace Sys2Proof.Machine

/-- The tick of a machine in a terminal run state answers that same state; the pending inputs stay unread (40_cycle R130). -/
theorem tick_of_terminal {s : State} (n : Nat) (h : s.run = .stopped ∨ s.run = .faulted) : tick n s = .next s := by
  rcases h with hrun | hrun
  · simp only [tick, hrun]
  · simp only [tick, hrun]

/-- Settles O19: Stopped is one of the two terminal run states (40_cycle R141). -/
theorem stoppedIsTerminal : Obligations.StoppedIsTerminal :=
  fun n _ hrun => tick_of_terminal n (.inl hrun)

end Sys2Proof.Machine
end

section
/-! Jumps and skips: an instruction that writes PC and nothing else, and the words that encode it (30_encoding R94, R99;
41_control R160). -/

namespace Sys2Proof.Machine

/-! ## Writing PC alone -/

theorem setPC_unchangedBut (s : State) (w : Word) : unchangedBut (fun p => p = .pc) s (s.setPC w) := by
  intro p hp
  cases p with
  | pc => exact absurd rfl hp
  | _ => rfl

/-- An instruction that answers the state with PC = `w` has that PC in its next state and leaves the rest. -/
theorem exec_writes_pc_only {i : Instr} {s : State} {w : Word} (h : exec i s = .next (s.setPC w)) :
    ∃ t, exec i s = .next t ∧ t.pc = w ∧ unchangedBut (fun p => p = .pc) s t :=
  ⟨s.setPC w, h, rfl, setPC_unchangedBut s w⟩

theorem zext16_toNat (nnn : Addr12) : (zext16 nnn).toNat = nnn.toNat :=
  BitVec.toNat_setWidth_of_le (by decide)

/-- The skip of SE, with the comparison read on numbers (41_control R165, R167). -/
theorem skipIf_equal (s : State) (b c : Byte) :
    s.advance.skipIf (b == c) = s.setPC (if b.toNat = c.toNat then s.pc + 4 else s.pc + 2) := by
  simp only [State.advance_skipIf, beq_iff_eq, BitVec.toNat_inj]

/-- The skip of SNE, the complement of SE's (41_control R166, R168). -/
theorem skipIf_differ (s : State) (b c : Byte) :
    s.advance.skipIf (b != c) = s.setPC (if b.toNat = c.toNat then s.pc + 2 else s.pc + 4) := by
  simp only [State.advance_skipIf, bne_iff_ne, BitVec.toNat_inj, ite_not]

/-! ## What each jump and skip answers -/

theorem exec_jp (nnn : Addr12) (s : State) : exec (.jp nnn) s = .next (s.setPC (zext16 nnn)) := rfl

theorem exec_seImm (x : RegIdx) (nn : Byte) (s : State) :
    exec (.seImm x nn) s = .next (s.setPC (if (s.reg x).toNat = nn.toNat then s.pc + 4 else s.pc + 2)) :=
  congrArg _ (skipIf_equal s (s.reg x) nn)

theorem exec_sneImm (x : RegIdx) (nn : Byte) (s : State) :
    exec (.sneImm x nn) s = .next (s.setPC (if (s.reg x).toNat = nn.toNat then s.pc + 2 else s.pc + 4)) :=
  congrArg _ (skipIf_differ s (s.reg x) nn)

theorem exec_seReg (x y : RegIdx) (s : State) :
    exec (.seReg x y) s = .next (s.setPC (if (s.reg x).toNat = (s.reg y).toNat then s.pc + 4 else s.pc + 2)) :=
  congrArg _ (skipIf_equal s (s.reg x) (s.reg y))

theorem exec_sneReg (x y : RegIdx) (s : State) :
    exec (.sneReg x y) s = .next (s.setPC (if (s.reg x).toNat = (s.reg y).toNat then s.pc + 2 else s.pc + 4)) :=
  congrArg _ (skipIf_differ s (s.reg x) (s.reg y))

/-! ## Encodings -/

/-- An encoding that fixes the family alone: it is enough to decode the words of that family (30_encoding R94). -/
theorem encodedBy_of_family {p : Word} {f : Word → Instr}
    (h : ∀ op, familyOf op = familyOf p → decode op = .instr (f op)) : encodedBy 0xF000 p f :=
  fun op hop => h op (familyOf_of_mask hop)

/-- An encoding that fixes the family and N (30_encoding R94). -/
theorem encodedBy_of_familyN {p : Word} {f : Word → Instr}
    (h : ∀ op, familyOf op = familyOf p → fieldN op = fieldN p → decode op = .instr (f op)) : encodedBy 0xF00F p f :=
  fun op hop => (fields_of_maskN hop).elim (h op)

theorem decode_of_family1 {op : Word} (h : familyOf op = 0x1) : decode op = .instr (.jp (fieldNNN op)) := by
  simp [decode, h]

theorem decode_of_family3 {op : Word} (h : familyOf op = 0x3) :
    decode op = .instr (.seImm (fieldX op) (fieldNN op)) := by
  simp [decode, h]

theorem decode_of_family4 {op : Word} (h : familyOf op = 0x4) :
    decode op = .instr (.sneImm (fieldX op) (fieldNN op)) := by
  simp [decode, h]

theorem decode_of_family5 {op : Word} (h : familyOf op = 0x5) (hn : fieldN op = 0x0) :
    decode op = .instr (.seReg (fieldX op) (fieldY op)) := by
  simp [decode, h, decodeNZero, hn]

theorem decode_of_family9 {op : Word} (h : familyOf op = 0x9) (hn : fieldN op = 0x0) :
    decode op = .instr (.sneReg (fieldX op) (fieldY op)) := by
  simp [decode, h, decodeNZero, hn]

/-- Families 0x5 and 0x9 have no instruction with N other than 0 (30_encoding R99). -/
theorem decode_of_family5_or_9_unimplemented {op : Word} (h : familyOf op = 0x5 ∨ familyOf op = 0x9)
    (hn : fieldN op ≠ 0x0) : decode op = .unimplemented op :=
  decode_unimplemented_of_not_instr (mt (instr_iff_of_family5_or_9 h).mp hn)

/-! ## The obligations -/

/-- Settles O34: JP ends in `setPC` of the zero-extended NNN, with no check on NNN (41_control R163). -/
theorem jpSetsPc : Obligations.JpSetsPc := by
  refine ⟨encodedBy_of_family fun _ => decode_of_family1, fun nnn s => ?_⟩
  obtain ⟨t, hexec, hpc, hframe⟩ := exec_writes_pc_only (exec_jp nnn s)
  exact ⟨t, hexec, by rw [hpc, zext16_toNat], hframe⟩

/-- Settles O36: both skips end in `setPC`, with the branches of SE and SNE exchanged (41_control R165, R166). -/
theorem skipsOnImmediate : Obligations.SkipsOnImmediate :=
  ⟨encodedBy_of_family fun _ => decode_of_family3,
    encodedBy_of_family fun _ => decode_of_family4,
    fun x nn s => ⟨exec_writes_pc_only (exec_seImm x nn s), exec_writes_pc_only (exec_sneImm x nn s)⟩⟩

/-- Settles O37: as O36 on two registers, with the check on N that these two families have (41_control R167, R168;
30_encoding R99). -/
theorem skipsOnRegisters : Obligations.SkipsOnRegisters := by
  refine ⟨encodedBy_of_familyN fun _ => decode_of_family5, encodedBy_of_familyN fun _ => decode_of_family9,
    fun op hfam hn => ?_,
    fun x y s => ⟨exec_writes_pc_only (exec_seReg x y s), exec_writes_pc_only (exec_sneReg x y s)⟩⟩
  have hfamily := hfam.imp (familyOf_eq_iff op 0x5).mpr (familyOf_eq_iff op 0x9).mpr
  have hN : fieldN op ≠ 0x0 := by rwa [ne_eq, BitVec.toNat_eq, fieldN_toNat]
  exact decode_of_family5_or_9_unimplemented hfamily hN

end Sys2Proof.Machine
end

section
/-! Loads and register arithmetic: an instruction that writes one register and PC, an instruction that writes its flag too, and
the words that encode them (30_encoding R94, R96; 42_alu R200). -/

namespace Sys2Proof.Machine

/-! ## Writing one register, without and with a flag -/

theorem advance_setReg_unchangedBut (s : State) (x : RegIdx) (b : Byte) :
    unchangedBut (fun p => p = .pc ∨ p = .reg x) s (s.advance.setReg x b) := by
  intro p hp
  cases p with
  | pc => exact absurd (.inl rfl) hp
  | reg r =>
    have hr : r ≠ x := fun h => hp (.inr (congrArg Place.reg h))
    exact State.setReg_reg_ne s.advance b hr
  | _ => rfl

theorem advance_setFlagged_unchangedBut (s : State) (x : RegIdx) (result flag : Byte) :
    unchangedBut (fun p => p = .pc ∨ p = .reg x ∨ p = .reg VF) s (s.advance.setFlagged x result flag) := by
  intro p hp
  cases p with
  | pc => exact absurd (.inl rfl) hp
  | reg r =>
    have hx : r ≠ x := fun h => hp (.inr (.inl (congrArg Place.reg h)))
    have hVF : r ≠ VF := fun h => hp (.inr (.inr (congrArg Place.reg h)))
    simp only [Place.same, State.setFlagged_reg, if_neg hVF, if_neg hx, State.advance_reg]
  | _ => rfl

/-- An instruction that answers the advanced state with `b` in V[x] has that byte there and leaves every other register, VF
among them. -/
theorem exec_writes_reg {i : Instr} {s : State} {x : RegIdx} {b : Byte} (h : exec i s = .next (s.advance.setReg x b)) :
    ∃ t, exec i s = .next t ∧ t.reg x = b ∧ t.pc = s.pc + 2 ∧ unchangedBut (fun p => p = .pc ∨ p = .reg x) s t :=
  ⟨_, h, State.setReg_reg_self _ _ _, rfl, advance_setReg_unchangedBut s x b⟩

/-- An instruction that answers the advanced state with a result and its flag: the flag is written last, so VF holds it for
every `x`, and V[x] holds the result unless it is VF (42_alu R200). -/
theorem exec_writes_flagged {i : Instr} {s : State} {x : RegIdx} {result flag : Byte}
    (h : exec i s = .next (s.advance.setFlagged x result flag)) :
    ∃ t, exec i s = .next t ∧ (x ≠ VF → t.reg x = result) ∧ t.reg VF = flag ∧ t.pc = s.pc + 2 ∧
      unchangedBut (fun p => p = .pc ∨ p = .reg x ∨ p = .reg VF) s t := by
  refine ⟨_, h, fun hx => ?_, ?_, rfl, advance_setFlagged_unchangedBut s x result flag⟩
  · rw [State.setFlagged_reg, if_neg hx, if_pos rfl]
  · rw [State.setFlagged_reg, if_pos rfl]

/-! ## What each load and operation answers -/

theorem exec_ldImm (x : RegIdx) (nn : Byte) (s : State) : exec (.ldImm x nn) s = .next (s.advance.setReg x nn) := rfl

theorem exec_addImm (x : RegIdx) (nn : Byte) (s : State) :
    exec (.addImm x nn) s = .next (s.advance.setReg x (s.reg x + nn)) := rfl

theorem exec_ldReg (x y : RegIdx) (s : State) : exec (.ldReg x y) s = .next (s.advance.setReg x (s.reg y)) := rfl

theorem exec_orReg (x y : RegIdx) (s : State) : exec (.orReg x y) s = .next (s.advance.setReg x (s.reg x ||| s.reg y)) := rfl

theorem exec_andReg (x y : RegIdx) (s : State) : exec (.andReg x y) s = .next (s.advance.setReg x (s.reg x &&& s.reg y)) := rfl

theorem exec_xorReg (x y : RegIdx) (s : State) : exec (.xorReg x y) s = .next (s.advance.setReg x (s.reg x ^^^ s.reg y)) := rfl

theorem exec_addReg (x y : RegIdx) (s : State) :
    exec (.addReg x y) s = .next (s.advance.setFlagged x (s.reg x + s.reg y) (carryOut (s.reg x) (s.reg y))) := rfl

theorem exec_subReg (x y : RegIdx) (s : State) :
    exec (.subReg x y) s = .next (s.advance.setFlagged x (s.reg x - s.reg y) (notBorrow (s.reg x) (s.reg y))) := rfl

/-! ## Flags and differences as numbers -/

theorem flagOf_toNat (c : Bool) : (flagOf c).toNat = if c then 1 else 0 := by
  cases c <;> rfl

theorem carryOut_toNat (a b : Byte) : (carryOut a b).toNat = if a.toNat + b.toNat > 255 then 1 else 0 := by
  simp only [carryOut, flagOf_toNat, decide_eq_true_eq, gt_iff_lt]

theorem notBorrow_toNat (a b : Byte) : (notBorrow a b).toNat = if a.toNat ≥ b.toNat then 1 else 0 := by
  simp only [notBorrow, flagOf_toNat, decide_eq_true_eq, ge_iff_le]

/-- The difference of two bytes is the integer difference mod 256, also where it borrows. -/
theorem sub_toNat_int (a b : Byte) : ((a - b).toNat : Int) = ((a.toNat : Int) - b.toNat) % 256 := by
  have hb := b.isLt
  rw [BitVec.toNat_sub]
  omega

/-! ## Encodings -/

theorem decode_of_family6 {op : Word} (h : familyOf op = 0x6) :
    decode op = .instr (.ldImm (fieldX op) (fieldNN op)) := by
  simp [decode, h]

theorem decode_of_family7 {op : Word} (h : familyOf op = 0x7) :
    decode op = .instr (.addImm (fieldX op) (fieldNN op)) := by
  simp [decode, h]

theorem decode_of_family8 {op : Word} (h : familyOf op = 0x8) : decode op = decodeFamily8 op := by
  simp [decode, h]

/-- An encoding in family 0x8: it is enough that the family's own check takes the words with this N (30_encoding R96). -/
theorem encodedBy_of_family8 {p : Word} {n : Nibble} {f : Word → Instr} (hfam : familyOf p = 0x8) (hN : fieldN p = n)
    (h : ∀ op, fieldN op = n → decodeFamily8 op = .instr (f op)) : encodedBy 0xF00F p f :=
  encodedBy_of_familyN fun op hop hn => (decode_of_family8 (hop.trans hfam)).trans (h op (hn.trans hN))

/-! ## The obligations -/

/-- Settles O41: ADD immediate writes V[X] alone, and the sum of two bytes is the sum mod 256 (42_alu R202). -/
theorem addImmediateSetsNoFlag : Obligations.AddImmediateSetsNoFlag := by
  refine ⟨encodedBy_of_family fun _ => decode_of_family7, fun x nn s => ?_⟩
  obtain ⟨t, hexec, hreg, hpc, hframe⟩ := exec_writes_reg (exec_addImm x nn s)
  exact ⟨t, hexec, by rw [hreg, BitVec.toNat_add], hpc, hframe⟩

/-- Settles O42: the three operations write V[X] alone (42_alu R204 to R206). -/
theorem bitwiseOperations : Obligations.BitwiseOperations := by
  refine ⟨encodedBy_of_family8 (n := 0x1) rfl rfl fun _ hn => by simp [decodeFamily8, hn],
    encodedBy_of_family8 (n := 0x2) rfl rfl fun _ hn => by simp [decodeFamily8, hn],
    encodedBy_of_family8 (n := 0x3) rfl rfl fun _ hn => by simp [decodeFamily8, hn], fun x y s => ⟨?_, ?_, ?_⟩⟩
  · obtain ⟨t, hexec, hreg, hpc, hframe⟩ := exec_writes_reg (exec_orReg x y s)
    exact ⟨t, hexec, fun k => by rw [hreg, BitVec.getLsbD_or], hpc, hframe⟩
  · obtain ⟨t, hexec, hreg, hpc, hframe⟩ := exec_writes_reg (exec_andReg x y s)
    exact ⟨t, hexec, fun k => by rw [hreg, BitVec.getLsbD_and], hpc, hframe⟩
  · obtain ⟨t, hexec, hreg, hpc, hframe⟩ := exec_writes_reg (exec_xorReg x y s)
    exact ⟨t, hexec, fun k => by rw [hreg, BitVec.getLsbD_xor], hpc, hframe⟩

/-- Settles O43: ADD writes the sum and then the carry, which is what VF keeps when it is the destination (42_alu R207). -/
theorem addRegistersWithCarry : Obligations.AddRegistersWithCarry := by
  refine ⟨encodedBy_of_family8 (n := 0x4) rfl rfl fun _ hn => by simp [decodeFamily8, hn], fun x y s => ?_⟩
  obtain ⟨t, hexec, hresult, hflag, hpc, hframe⟩ := exec_writes_flagged (exec_addReg x y s)
  exact ⟨t, hexec, fun hx => by rw [hresult hx, BitVec.toNat_add], by rw [hflag, carryOut_toNat], hpc, hframe⟩

/-- Settles O44: SUB writes the difference and then not-borrow, which compares the operands from before (42_alu R208). -/
theorem subtractWithNotBorrow : Obligations.SubtractWithNotBorrow := by
  refine ⟨encodedBy_of_family8 (n := 0x5) rfl rfl fun _ hn => by simp [decodeFamily8, hn], fun x y s => ?_⟩
  obtain ⟨t, hexec, hresult, hflag, hpc, hframe⟩ := exec_writes_flagged (exec_subReg x y s)
  exact ⟨t, hexec, fun hx => by rw [hresult hx, sub_toNat_int], by rw [hflag, notBorrow_toNat], hpc, hframe⟩

/-- Settles O40: both loads write V[X] alone (42_alu R201, R203). -/
theorem loadImmediateAndCopy : Obligations.LoadImmediateAndCopy :=
  ⟨encodedBy_of_family fun _ => decode_of_family6,
    encodedBy_of_family8 (n := 0x0) rfl rfl fun _ hn => by simp [decodeFamily8, hn],
    fun x nn s => exec_writes_reg (exec_ldImm x nn s),
    fun x y s => exec_writes_reg (exec_ldReg x y s)⟩

end Sys2Proof.Machine
end

section
/-! The index register: an instruction that writes I and PC, and the words that encode it (30_encoding R94, R98;
43_index_memory R250). -/

namespace Sys2Proof.Machine

/-! ## Writing I alone -/

theorem advance_setI_unchangedBut (s : State) (w : Word) :
    unchangedBut (fun p => p = .pc ∨ p = .index) s (s.advance.setI w) := by
  intro p hp
  cases p with
  | pc => exact absurd (.inl rfl) hp
  | index => exact absurd (.inr rfl) hp
  | _ => rfl

/-- An instruction that answers the advanced state with `w` in I has that word there and leaves the rest. -/
theorem exec_writes_index {i : Instr} {s : State} {w : Word} (h : exec i s = .next (s.advance.setI w)) :
    ∃ t, exec i s = .next t ∧ t.i = w ∧ t.pc = s.pc + 2 ∧ unchangedBut (fun p => p = .pc ∨ p = .index) s t :=
  ⟨_, h, rfl, rfl, advance_setI_unchangedBut s w⟩

/-! ## What each load of I answers -/

theorem exec_ldI (nnn : Addr12) (s : State) : exec (.ldI nnn) s = .next (s.advance.setI (zext16 nnn)) := rfl

theorem exec_ldF (x : RegIdx) (s : State) : exec (.ldF x) s = .next (s.advance.setI (glyphAddr (s.reg x))) := rfl

/-! ## The glyph address as a number -/

theorem lowNibble_toNat (b : Byte) : (b &&& 0x0F).toNat = b.toNat % 16 :=
  (BitVec.toNat_and b 0x0F).trans (Nat.and_two_pow_sub_one_eq_mod b.toNat 4)

/-- Five times a digit is at most 75, so sixteen bits hold it without a wrap (43_index_memory R253). -/
theorem glyphAddr_toNat (b : Byte) : (glyphAddr b).toNat = 5 * (b.toNat % 16) := by
  have hfits : 5 * (b.toNat % 16) < 2 ^ 16 := by omega
  rw [glyphAddr, lowNibble_toNat, BitVec.toNat_ofNat, Nat.mod_eq_of_lt hfits]

/-! ## Encodings -/

/-- An encoding that fixes the family and NN (30_encoding R94). -/
theorem encodedBy_of_familyNN {p : Word} {f : Word → Instr}
    (h : ∀ op, familyOf op = familyOf p → fieldNN op = fieldNN p → decode op = .instr (f op)) : encodedBy 0xF0FF p f :=
  fun op hop => (fields_of_maskNN hop).elim (h op)

theorem decode_of_familyA {op : Word} (h : familyOf op = 0xA) : decode op = .instr (.ldI (fieldNNN op)) := by
  simp [decode, h]

theorem decode_of_familyF {op : Word} (h : familyOf op = 0xF) : decode op = decodeFamilyF op := by
  simp [decode, h]

/-- An encoding in family 0xF: it is enough that the family's own check takes the words with this NN (30_encoding R98). -/
theorem encodedBy_of_familyF {p : Word} {nn : Byte} {f : Word → Instr} (hfam : familyOf p = 0xF) (hNN : fieldNN p = nn)
    (h : ∀ op, fieldNN op = nn → decodeFamilyF op = .instr (f op)) : encodedBy 0xF0FF p f :=
  encodedBy_of_familyNN fun op hop hnn => (decode_of_familyF (hop.trans hfam)).trans (h op (hnn.trans hNN))

/-! ## The obligations -/

/-- Settles O48: both loads write I alone, one the zero-extended NNN and the other the glyph address, which the font base
0x000 leaves at five times the digit (43_index_memory R251, R253; 10_state R32). -/
theorem loadIndexAndGlyphAddress : Obligations.LoadIndexAndGlyphAddress := by
  refine ⟨encodedBy_of_family fun _ => decode_of_familyA,
    encodedBy_of_familyF (nn := 0x29) rfl rfl fun _ hnn => by simp [decodeFamilyF, hnn], fun nnn s => ?_, fun x s => ?_⟩
  · obtain ⟨t, hexec, hi, hpc, hframe⟩ := exec_writes_index (exec_ldI nnn s)
    exact ⟨t, hexec, by rw [hi, zext16_toNat], hpc, hframe⟩
  · obtain ⟨t, hexec, hi, hpc, hframe⟩ := exec_writes_index (exec_ldF x s)
    exact ⟨t, hexec, by rw [hi, glyphAddr_toNat], hpc, hframe⟩

end Sys2Proof.Machine
end

section
/-! The delay timer's read: what it answers, and the words that encode it (30_encoding R98; 45_timers_keys R323). -/

namespace Sys2Proof.Machine

/-! ## What the timer read answers -/

theorem exec_ldVxDT (x : RegIdx) (s : State) : exec (.ldVxDT x) s = .next (s.advance.setReg x s.dt) := rfl

/-! ## The obligation -/

/-- Settles O58: the read writes V[X] and PC alone, so DT is framed with every other place (45_timers_keys R323). -/
theorem readDelayTimer : Obligations.ReadDelayTimer :=
  ⟨encodedBy_of_familyF (nn := 0x07) rfl rfl fun _ hnn => by simp [decodeFamilyF, hnn],
    fun x s => exec_writes_reg (exec_ldVxDT x s)⟩

end Sys2Proof.Machine
end

section
/-! The load errors: when `load` answers one, and why no tick does, as every tick ends in a next state (70_reset R404;
40_cycle R121, R127, R130; log 9). -/

namespace Sys2Proof.Machine

/-! ## What the load answers -/

section
variable {initRam : Nat → Byte} {rom : List Byte}

theorem load_of_tooLong (h : Config.maxRom < rom.length) : load initRam (some rom) = .fault .romTooLarge := if_pos h

theorem load_of_fits (h : rom.length ≤ Config.maxRom) :
    load initRam (some rom) = .next (State.reset.setMem (bootMemory initRam rom)) := if_neg (Nat.not_lt.mpr h)

theorem load_eq_romTooLarge_iff : load initRam (some rom) = .fault .romTooLarge ↔ Config.maxRom < rom.length := by
  refine ⟨fun hload => Nat.lt_of_not_le fun hfits => ?_, load_of_tooLong⟩
  rw [load_of_fits hfits] at hload
  cases hload

theorem load_eq_next_iff : (∃ t, load initRam (some rom) = .next t) ↔ rom.length ≤ Config.maxRom := by
  refine ⟨fun ⟨t, hload⟩ => Nat.le_of_not_lt fun hlong => ?_, fun hfits => ⟨_, load_of_fits hfits⟩⟩
  rw [load_of_tooLong hlong] at hload
  cases hload

end

/-! ## Every tick ends in a next state -/

/-- The instructions that may fault end in `complete`; each of the others answers its next state as it is. -/
theorem exec_next (i : Instr) (s : State) : ∃ t, exec i s = .next t := by
  cases i with
  | ret | call _ | drw _ _ _ | skp _ | sknp _ | ldB _ | ldMemStore _ | ldMemLoad _ => exact complete_next _ _ _
  | _ => exact ⟨_, rfl⟩

theorem instrStep_next (s : State) : ∃ t, instrStep s = .next t := by
  obtain ⟨-, hstep⟩ | ⟨-, w, -, hstep⟩ | ⟨-, i, -, hstep⟩ := instrStep_cases s
  · exact ⟨_, hstep⟩
  · exact ⟨_, hstep⟩
  · rw [hstep]
    exact exec_next i s

theorem runBatch_next (n : Nat) (s : State) : ∃ t, runBatch n s = .next t := by
  induction n generalizing s with
  | zero => exact ⟨s, rfl⟩
  | succ n ih =>
    obtain ⟨t, hstep⟩ := instrStep_next s
    simp only [runBatch, hstep]
    split
    · exact ⟨t, rfl⟩
    · exact ih t

theorem runningTick_next (n : Nat) (s : State) : ∃ t, runningTick n s = .next t := by
  obtain ⟨t, hbatch⟩ := runBatch_next n s
  cases hwait : s.awaitKey with
  | some x => exact ⟨endTick (completeWait x s), by simp only [runningTick, hwait]⟩
  | none =>
    simp only [runningTick, hwait, hbatch]
    split
    · exact ⟨t, rfl⟩
    · exact ⟨endTick t, rfl⟩

theorem liveTick_next (n : Nat) (inp : TickInput) (s : State) : ∃ t, liveTick n inp s = .next t := by
  by_cases hquit : inp.quit = true
  · exact ⟨s.setRun .stopped, if_pos hquit⟩
  · simp only [liveTick, if_neg hquit]
    generalize (if inp.pauseToggle then togglePause s else s) = s'
    split
    · exact ⟨s', rfl⟩
    · exact runningTick_next n s'

theorem tick_next (n : Nat) (s : State) : ∃ t, tick n s = .next t := by
  cases hrun : s.run with
  | running | paused =>
    simp only [tick, hrun]
    exact liveTick_next n _ _
  | stopped => exact ⟨s, tick_of_terminal n (.inl hrun)⟩
  | faulted => exact ⟨s, tick_of_terminal n (.inr hrun)⟩

theorem step_ne_fault (s : State) (r : Fault) : step s ≠ .fault r := by
  obtain ⟨t, hstep⟩ : ∃ t, step s = .next t := tick_next _ s
  rw [hstep]
  exact nofun

/-! ## The obligation -/

/-- Settles O2: `load` answers by one comparison of the length with `Config.maxRom`, and a step ends in a next state,
a run-time fault being one whose `run` is Faulted (70_reset R404; log 9). -/
theorem loadFailsExactlyOnUnreadableOrTooLong : Obligations.LoadFailsExactlyOnUnreadableOrTooLong :=
  ⟨fun _ => rfl, fun _ _ => load_eq_romTooLarge_iff, fun _ _ => load_eq_next_iff, step_ne_fault⟩

end Sys2Proof.Machine
end

section
/-! The encoder against the decoder, and the rows of the opcode map against each other (30_encoding R91 to R94). -/

namespace Sys2Proof.Machine

/-! ## Decoding by family, where no section above says it -/

section
variable {op : Word}

theorem decode_of_family0 (h : familyOf op = 0x0) : decode op = decodeFamily0 op := by
  simp [decode, h]

theorem decode_of_family2 (h : familyOf op = 0x2) : decode op = .instr (.call (fieldNNN op)) := by
  simp [decode, h]

theorem decode_of_familyB (h : familyOf op = 0xB) : decode op = .instr (.jpV0 (fieldNNN op)) := by
  simp [decode, h]

theorem decode_of_familyC (h : familyOf op = 0xC) : decode op = .instr (.rnd (fieldX op) (fieldNN op)) := by
  simp [decode, h]

theorem decode_of_familyD (h : familyOf op = 0xD) :
    decode op = .instr (.drw (fieldX op) (fieldY op) (fieldN op)) := by
  simp [decode, h]

theorem decode_of_familyE (h : familyOf op = 0xE) : decode op = decodeFamilyE op := by
  simp [decode, h]

end

/-! ## Encoding, then decoding -/

/-- The decoder reads back every encoding, family by family (30_encoding R94 to R99). -/
theorem decode_encode (i : Instr) : decode (encode i) = .instr i := by
  cases i with
  | cls | ret => rfl
  | jp _ | call _ | ldI _ | jpV0 _ => simp [encode, decode]
  | seImm _ _ | sneImm _ _ | ldImm _ _ | addImm _ _ | rnd _ _ => simp [encode, decode]
  | drw _ _ _ => simp [encode, decode]
  | seReg _ _ | sneReg _ _ => simp [encode, decode, decodeNZero]
  | ldReg _ _ | orReg _ _ | andReg _ _ | xorReg _ _ | addReg _ _ | subReg _ _ | shr _ _ | subnReg _ _ | shl _ _ =>
    simp [encode, decode_of_family8, decodeFamily8]
  | skp _ | sknp _ => simp [encode, decode_of_familyE, decodeFamilyE]
  | ldVxDT _ | ldVxK _ | ldDTVx _ | ldSTVx _ | addI _ | ldF _ | ldB _ | ldMemStore _ | ldMemLoad _ =>
    simp [encode, decode_of_familyF, decodeFamilyF]

theorem decodeBytes_encodeBytes (i : Instr) (rest : List Byte) :
    decodeBytes (encodeBytes i ++ rest) = .ok (i, rest) := by
  simp [encodeBytes, decodeBytes, decode_encode]

/-! ## Decoding, then encoding -/

section
variable {op : Word} {f : Nibble} {i j : Instr}

theorem wordNNN_of_fields (hf : familyOf op = f) : wordNNN f (fieldNNN op) = op := by
  rw [← hf, wordNNN_fields]

theorem wordXNN_of_fields {nn : Byte} (hf : familyOf op = f) (hnn : fieldNN op = nn) :
    wordXNN f (fieldX op) nn = op := by
  rw [← hf, ← hnn, wordXNN_fields]

theorem wordXYN_of_fields {n : Nibble} (hf : familyOf op = f) (hn : fieldN op = n) :
    wordXYN f (fieldX op) (fieldY op) n = op := by
  rw [← hf, ← hn, wordXYN_fields]

theorem encode_of_decode_eq (hj : decode op = .instr j) (henc : encode j = op) (hi : decode op = .instr i) :
    encode i = op := by
  cases hj.symm.trans hi
  exact henc

/-- A check with an instruction behind it: the decoded instruction encodes as the word if that instruction does where the
check passes, and the checks after it give one that does. -/
theorem encode_of_ite {c : Prop} [Decidable c] {d : Decoded} (hj : c → encode j = op)
    (hd : d = .instr i → encode i = op) : (if c then .instr j else d) = .instr i → encode i = op := by
  split
  · next hc => rintro ⟨⟩; exact hj hc
  · exact hd

theorem encode_of_plain_family (h : familyOf op ∈ plainFamilies) (hi : decode op = .instr i) : encode i = op := by
  simp only [plainFamilies, List.mem_cons, List.not_mem_nil, or_false] at h
  rcases h with h | h | h | h | h | h | h | h | h | h
  · exact encode_of_decode_eq (decode_of_family1 h) (wordNNN_of_fields h) hi
  · exact encode_of_decode_eq (decode_of_family2 h) (wordNNN_of_fields h) hi
  · exact encode_of_decode_eq (decode_of_family3 h) (wordXNN_of_fields h rfl) hi
  · exact encode_of_decode_eq (decode_of_family4 h) (wordXNN_of_fields h rfl) hi
  · exact encode_of_decode_eq (decode_of_family6 h) (wordXNN_of_fields h rfl) hi
  · exact encode_of_decode_eq (decode_of_family7 h) (wordXNN_of_fields h rfl) hi
  · exact encode_of_decode_eq (decode_of_familyA h) (wordNNN_of_fields h) hi
  · exact encode_of_decode_eq (decode_of_familyB h) (wordNNN_of_fields h) hi
  · exact encode_of_decode_eq (decode_of_familyC h) (wordXNN_of_fields h rfl) hi
  · exact encode_of_decode_eq (decode_of_familyD h) (wordXYN_of_fields h rfl) hi

theorem encode_of_family0 : decodeFamily0 op = .instr i → encode i = op :=
  encode_of_ite Eq.symm (encode_of_ite Eq.symm nofun)

theorem encode_of_family5_or_9 (h : familyOf op = 0x5 ∨ familyOf op = 0x9) (hi : decode op = .instr i) :
    encode i = op := by
  have hn := (instr_iff_of_family5_or_9 h).mp ⟨i, hi⟩
  rcases h with h | h
  · exact encode_of_decode_eq (decode_of_family5 h hn) (wordXYN_of_fields h hn) hi
  · exact encode_of_decode_eq (decode_of_family9 h hn) (wordXYN_of_fields h hn) hi

theorem encode_of_family8 (h : familyOf op = 0x8) : decodeFamily8 op = .instr i → encode i = op := by
  unfold decodeFamily8
  iterate 9 refine encode_of_ite (wordXYN_of_fields h) ?_
  exact nofun

theorem encode_of_familyE (h : familyOf op = 0xE) : decodeFamilyE op = .instr i → encode i = op := by
  unfold decodeFamilyE
  iterate 2 refine encode_of_ite (wordXNN_of_fields h) ?_
  exact nofun

theorem encode_of_familyF (h : familyOf op = 0xF) : decodeFamilyF op = .instr i → encode i = op := by
  unfold decodeFamilyF
  iterate 9 refine encode_of_ite (wordXNN_of_fields h) ?_
  exact nofun

theorem encode_of_decode (hi : decode op = .instr i) : encode i = op := by
  rcases family_cases (familyOf op) with h | h | h | h | h | h
  · exact encode_of_plain_family h hi
  · exact encode_of_family0 (decode_of_family0 h ▸ hi)
  · exact encode_of_family5_or_9 h hi
  · exact encode_of_family8 h (decode_of_family8 h ▸ hi)
  · exact encode_of_familyE h (decode_of_familyE h ▸ hi)
  · exact encode_of_familyF h (decode_of_familyF h ▸ hi)

end

/-! ## The rows of the opcode map -/

/-- Two different rows disagree on a bit that both masks keep (30_encoding R94). -/
theorem rows_disagree : ∀ r ∈ OpcodeRow.all, ∀ r' ∈ OpcodeRow.all,
    r.pattern &&& r'.mask = r'.pattern &&& r.mask → r = r' := by
  decide

theorem patterns_agree_of_selects {r r' : OpcodeRow} {op : Word} (h : r.selects op = true)
    (h' : r'.selects op = true) : r.pattern &&& r'.mask = r'.pattern &&& r.mask := by
  rw [← (selects_iff r op).mp h, ← (selects_iff r' op).mp h', BitVec.and_assoc, BitVec.and_assoc,
    BitVec.and_comm r.mask]

/-! ## The obligations -/

/-- Settles O5: every encoding decodes to its instruction, as a word and as the two bytes memory holds (30_encoding R93;
20_memory R66). -/
theorem decodeOfEncodeIsTheInstruction : Obligations.DecodeOfEncodeIsTheInstruction :=
  ⟨decode_encode, decodeBytes_encodeBytes⟩

/-- Settles O6: each family's instruction keeps every field its checks did not fix (30_encoding R93). -/
theorem decodedWordEncodesBack : Obligations.DecodedWordEncodesBack :=
  fun _ _ => encode_of_decode

/-- Settles O8: two rows that select one word agree on every bit that both masks keep (30_encoding R94). -/
theorem noWordMatchesTwoRows : Obligations.NoWordMatchesTwoRows :=
  fun _ r hr r' hr' h h' => rows_disagree r hr r' hr' (patterns_agree_of_selects h h')

/-- Settles O10: each of the eleven words is closed, so decoding it is a computation. -/
theorem sampleWordsDecode : Obligations.SampleWordsDecode := by
  unfold Obligations.SampleWordsDecode
  decide

end Sys2Proof.Machine
end

section
/-! The stack instructions and JP V0: what each answers, where it completes and where it faults, and what it leaves
unchanged (41_control R161 to R164, R169, R170). -/

namespace Sys2Proof.Machine

/-! ## What each instruction answers -/

/-- RET with `d + 1` return addresses held (41_control R162). -/
theorem exec_ret_ok {s : State} {d : Fin 12} (h : s.sp.val = d.val + 1) :
    exec .ret s = .next ((s.setStack s.stack d.castSucc).setPC s.stack[d]) := by
  have hpop : s.advance.pop = .ok (s.stack[d], s.advance.setStack s.stack d.castSucc) := by
    rw [State.pop_ok _ (by simp [h])]
    simp [h, Fin.castSucc, Fin.castAdd, Fin.castLE]
  simp only [exec, execRet, hpop, complete_ok]
  rfl

theorem exec_ret_empty {s : State} (h : s.sp = 0) :
    exec .ret s = .next (takeFault s (some (encode .ret)) ⟨.stackUnderflow, none, none⟩) := by
  simp only [exec, execRet, State.pop_empty s.advance (congrArg Fin.val h), complete_error]

/-- CALL with `d` return addresses held, `d` below 12 (41_control R164). -/
theorem exec_call_ok {s : State} {d : Fin 12} (nnn : Addr12) (h : s.sp.val = d.val) :
    exec (.call nnn) s = .next ((s.setStack (s.stack.set d (s.pc + 2)) d.succ).setPC (zext16 nnn)) := by
  have hpush : s.advance.push s.advance.pc = .ok (s.advance.setStack (s.stack.set d (s.pc + 2)) d.succ) := by
    rw [State.push_ok _ _ (by simp [h])]
    simp [h, Fin.succ]
  simp only [exec, execCall, hpush, complete_ok]
  rfl

theorem exec_call_full {s : State} (nnn : Addr12) (h : s.sp = 12) :
    exec (.call nnn) s = .next (takeFault s (some (encode (.call nnn))) ⟨.stackOverflow, none, none⟩) := by
  have hfull : ¬ s.advance.sp.val < 12 := by simp [h]
  simp only [exec, execCall, State.push_full s.advance _ hfull, complete_error]

theorem exec_jpV0 (nnn : Addr12) (s : State) : exec (.jpV0 nnn) s = .next (s.setPC (offsetTarget nnn (s.reg 0))) := rfl

/-! ## What each leaves unchanged -/

theorem pop_unchangedBut (s : State) (d : Fin 13) (w : Word) :
    unchangedBut (fun p => p = .pc ∨ p = .sp) s ((s.setStack s.stack d).setPC w) := by
  intro p hp
  cases p with
  | pc => exact absurd (.inl rfl) hp
  | sp => exact absurd (.inr rfl) hp
  | _ => rfl

theorem push_unchangedBut (s : State) (d : Fin 12) (e : Fin 13) (r w : Word) :
    unchangedBut (fun p => p = .pc ∨ p = .sp ∨ p = .slot d) s ((s.setStack (s.stack.set d r) e).setPC w) := by
  intro p hp
  cases p with
  | pc => exact absurd (.inl rfl) hp
  | sp => exact absurd (.inr (.inl rfl)) hp
  | slot j =>
    have hj : d.val ≠ j.val := fun h => hp (.inr (.inr (congrArg Place.slot (Fin.ext h.symm))))
    exact Vector.getElem_set_ne d.isLt j.isLt hj
  | _ => rfl

/-! ## The target of JP V0 -/

/-- NNN + V[0] is at most 0x10FE, so sixteen bits hold it without a wrap (41_control R169). -/
theorem offsetTarget_toNat (nnn : Addr12) (b : Byte) : (offsetTarget nnn b).toNat = nnn.toNat + b.toNat := by
  have hfits : nnn.toNat + b.toNat < 2 ^ 16 := by omega
  rw [offsetTarget, BitVec.toNat_ofNat, Nat.mod_eq_of_lt hfits]

/-! ## The obligations -/

/-- Settles O33: with a return address held the pop takes the top one, and with none it raises (41_control R162). -/
theorem retPopsReturnAddress : Obligations.RetPopsReturnAddress :=
  ⟨rfl, fun s => ⟨fun _ hd => ⟨_, exec_ret_ok hd, rfl, rfl, pop_unchangedBut s _ _⟩, exec_ret_empty⟩⟩

/-- Settles O35: below depth 12 the push writes S[SP], and at depth 12 it raises (41_control R164). -/
theorem callPushesReturnAddress : Obligations.CallPushesReturnAddress := by
  refine ⟨encodedBy_of_family fun _ => decode_of_family2, fun nnn s => ⟨fun d hd => ?_, exec_call_full nnn⟩⟩
  exact ⟨_, exec_call_ok nnn hd, rfl, Vector.getElem_set_self _, zext16_toNat nnn, push_unchangedBut s d _ _ _⟩

/-- Settles O38: JP V0 ends in `setPC` of a sum that sixteen bits hold, with no check on it (41_control R169). -/
theorem jpV0AddsV0 : Obligations.JpV0AddsV0 := by
  refine ⟨encodedBy_of_family fun _ => decode_of_familyB, fun nnn s => ?_⟩
  obtain ⟨t, hexec, hpc, hframe⟩ := exec_writes_pc_only (exec_jpV0 nnn s)
  exact ⟨t, hexec, by rw [hpc, offsetTarget_toNat], hframe⟩

/-- Settles O39: the CALL at depth `d` leaves depth `d + 1` and its return address in slot `d`, which is what the RET pops
(41_control R170). -/
theorem returnUndoesCall : Obligations.ReturnUndoesCall := by
  intro nnn s t u d hd hcall hsp hslot
  cases (exec_call_ok nnn hd).symm.trans hcall
  have hdepth : u.sp.val = d.val + 1 := congrArg Fin.val hsp
  refine ⟨_, exec_ret_ok hdepth, ?_, Fin.ext hd.symm⟩
  exact hslot.trans (Vector.getElem_set_self _)

end Sys2Proof.Machine
end

section
/-! The flag-writing SUBN and shifts, RND and ADD I: what each answers, its numbers, and the words that encode it (42_alu R209
to R212; 43_index_memory R252). -/

namespace Sys2Proof.Machine

/-! ## What each operation answers -/

theorem exec_subnReg (x y : RegIdx) (s : State) :
    exec (.subnReg x y) s = .next (s.advance.setFlagged x (s.reg y - s.reg x) (notBorrow (s.reg y) (s.reg x))) := rfl

theorem exec_shr (x y : RegIdx) (s : State) :
    exec (.shr x y) s = .next (s.advance.setFlagged x (s.reg x >>> 1) (shiftedOutRight (s.reg x))) := rfl

theorem exec_shl (x y : RegIdx) (s : State) :
    exec (.shl x y) s = .next (s.advance.setFlagged x (s.reg x <<< 1) (shiftedOutLeft (s.reg x))) := rfl

theorem exec_rnd (x : RegIdx) (nn : Byte) (s : State) :
    exec (.rnd x nn) s = .next (s.advance.countDraw.setReg x (Config.drawByte s.draws &&& nn)) := rfl

theorem exec_addI (x : RegIdx) (s : State) :
    exec (.addI x) s = .next (s.advance.setI (s.i + (s.reg x).setWidth 16)) := rfl

/-- The draw counter is the one place RND writes beside V[X] and PC (40_cycle R152). -/
theorem advance_countDraw_setReg_unchangedBut (s : State) (x : RegIdx) (b : Byte) :
    unchangedBut (fun p => p = .pc ∨ p = .reg x ∨ p = .draws) s (s.advance.countDraw.setReg x b) := by
  intro p hp
  cases p with
  | pc => exact absurd (.inl rfl) hp
  | reg r =>
    have hr : r ≠ x := fun h => hp (.inr (.inl (congrArg Place.reg h)))
    exact State.setReg_reg_ne s.advance.countDraw b hr
  | draws => exact absurd (.inr (.inr rfl)) hp
  | _ => rfl

/-! ## Shifts and sums as numbers -/

section
variable (b : Byte)

theorem shiftRight_one_toNat : (b >>> 1).toNat = b.toNat / 2 := by
  rw [BitVec.toNat_ushiftRight, Nat.shiftRight_one]

theorem shiftLeft_one_toNat : (b <<< 1).toNat = b.toNat * 2 % 256 := by
  rw [BitVec.toNat_shiftLeft, Nat.shiftLeft_eq]

theorem shiftedOutRight_toNat : (shiftedOutRight b).toNat = b.toNat % 2 :=
  (BitVec.toNat_and b 1).trans (Nat.and_one_is_mod _)

theorem shiftedOutLeft_toNat : (shiftedOutLeft b).toNat = b.toNat / 128 := by
  rw [shiftedOutLeft, BitVec.toNat_ushiftRight, Nat.shiftRight_eq_div_pow]

end

theorem add_setWidth_toNat (w : Word) (b : Byte) : (w + b.setWidth 16).toNat = (w.toNat + b.toNat) % 65536 := by
  rw [BitVec.toNat_add, BitVec.toNat_setWidth_of_le (by decide)]

/-! ## The obligations -/

/-- Settles O45: SUBN writes V[Y] - V[X] and then not-borrow, which compares the operands from before (42_alu R210). -/
theorem reverseSubtractWithNotBorrow : Obligations.ReverseSubtractWithNotBorrow := by
  refine ⟨encodedBy_of_family8 (n := 0x7) rfl rfl fun _ hn => by simp [decodeFamily8, hn], fun x y s => ?_⟩
  obtain ⟨t, hexec, hresult, hflag, hpc, hframe⟩ := exec_writes_flagged (exec_subnReg x y s)
  exact ⟨t, hexec, fun hx => by rw [hresult hx, sub_toNat_int], by rw [hflag, notBorrow_toNat], hpc, hframe⟩

/-- Settles O46: each shift writes its result and then the bit shifted out, both of V[X] alone (42_alu R209, R211). -/
theorem shiftsMoveOneBitIntoVF : Obligations.ShiftsMoveOneBitIntoVF := by
  refine ⟨encodedBy_of_family8 (n := 0x6) rfl rfl fun _ hn => by simp [decodeFamily8, hn],
    encodedBy_of_family8 (n := 0xE) rfl rfl fun _ hn => by simp [decodeFamily8, hn], fun x y s => ⟨?_, ?_⟩⟩
  · obtain ⟨t, hexec, hresult, hflag, hpc, hframe⟩ := exec_writes_flagged (exec_shr x y s)
    exact ⟨t, hexec, fun hx => by rw [hresult hx, shiftRight_one_toNat], by rw [hflag, shiftedOutRight_toNat], hpc, hframe⟩
  · obtain ⟨t, hexec, hresult, hflag, hpc, hframe⟩ := exec_writes_flagged (exec_shl x y s)
    exact ⟨t, hexec, fun hx => by rw [hresult hx, shiftLeft_one_toNat], by rw [hflag, shiftedOutLeft_toNat], hpc, hframe⟩

/-- Settles O47: the mask is a bitwise AND with the byte of this draw, whatever byte that is (42_alu R212). -/
theorem randomByteIsMasked : Obligations.RandomByteIsMasked := by
  refine ⟨encodedBy_of_family fun _ => decode_of_familyC, fun x nn s => ⟨_, exec_rnd x nn s, fun k => ?_, rfl, rfl,
    advance_countDraw_setReg_unchangedBut s x _⟩⟩
  rw [State.setReg_reg_self, BitVec.getLsbD_and]

/-- Settles O49: ADD I writes I alone, and the sum of two 16-bit words is the sum mod 65536 (43_index_memory R252). -/
theorem addIndexWrapsAtSixteenBits : Obligations.AddIndexWrapsAtSixteenBits := by
  refine ⟨encodedBy_of_familyF (nn := 0x1E) rfl rfl fun _ hnn => by simp [decodeFamilyF, hnn], fun x s => ?_⟩
  obtain ⟨t, hexec, hi, hpc, hframe⟩ := exec_writes_index (exec_addI x s)
  exact ⟨t, hexec, by rw [hi, add_setWidth_toNat], hpc, hframe⟩

end Sys2Proof.Machine
end

section
/-! The key instructions: the skips on a key's level, where V[X] is a key and where it is not, and the start of a wait
(45_timers_keys R320 to R324). -/

namespace Sys2Proof.Machine

/-! ## What each instruction answers -/

section
variable {s : State} {x : RegIdx}

/-- SKP where V[X] is a key (45_timers_keys R321). -/
theorem exec_skp_ok (h : (s.reg x).toNat ≤ 0xF) : exec (.skp x) s =
    .next (s.setPC (if s.keypad.getLsbD (s.reg x).toNat = true then s.pc + 4 else s.pc + 2)) := by
  simp only [exec, execSkp, keyIndex_ok _ (Nat.lt_succ_of_le h), complete_ok, State.advance_skipIf, pressed]

/-- SKNP where V[X] is a key, the complement of SKP (45_timers_keys R322). -/
theorem exec_sknp_ok (h : (s.reg x).toNat ≤ 0xF) : exec (.sknp x) s =
    .next (s.setPC (if s.keypad.getLsbD (s.reg x).toNat = true then s.pc + 2 else s.pc + 4)) := by
  simp only [exec, execSknp, keyIndex_ok _ (Nat.lt_succ_of_le h), complete_ok, State.advance_skipIf, pressed,
    Bool.not_eq_true', ← Bool.not_eq_true, ite_not]

theorem exec_skp_badKey (h : 0xF < (s.reg x).toNat) :
    exec (.skp x) s = .next (takeFault s (some (encode (.skp x))) ⟨.badKeyIndex, none, some (s.reg x)⟩) := by
  simp only [exec, execSkp, keyIndex_error _ (Nat.not_lt.mpr h), complete_error]

theorem exec_sknp_badKey (h : 0xF < (s.reg x).toNat) :
    exec (.sknp x) s = .next (takeFault s (some (encode (.sknp x))) ⟨.badKeyIndex, none, some (s.reg x)⟩) := by
  simp only [exec, execSknp, keyIndex_error _ (Nat.not_lt.mpr h), complete_error]

end

theorem exec_ldVxK (x : RegIdx) (s : State) : exec (.ldVxK x) s = .next (s.advance.setAwait (some x)) := rfl

theorem advance_setAwait_unchangedBut (s : State) (w : Option RegIdx) :
    unchangedBut (fun p => p = .pc ∨ p = .awaitKey) s (s.advance.setAwait w) := by
  intro p hp
  cases p with
  | pc => exact absurd (.inl rfl) hp
  | awaitKey => exact absurd (.inr rfl) hp
  | _ => rfl

/-! ## Encodings -/

/-- An encoding in family 0xE: it is enough that the family's own check takes the words with this NN (30_encoding R97). -/
theorem encodedBy_of_familyE {p : Word} {nn : Byte} {f : Word → Instr} (hfam : familyOf p = 0xE) (hNN : fieldNN p = nn)
    (h : ∀ op, fieldNN op = nn → decodeFamilyE op = .instr (f op)) : encodedBy 0xF0FF p f :=
  encodedBy_of_familyNN fun op hop hnn => (decode_of_familyE (hop.trans hfam)).trans (h op (hnn.trans hNN))

/-! ## The obligations -/

/-- Settles O57: with V[X] a key, both skips test one bit of the latched snapshot (45_timers_keys R321, R322). -/
theorem skipsOnKeyLevel : Obligations.SkipsOnKeyLevel :=
  ⟨encodedBy_of_familyE (nn := 0x9E) rfl rfl fun _ hnn => by simp [decodeFamilyE, hnn],
    encodedBy_of_familyE (nn := 0xA1) rfl rfl fun _ hnn => by simp [decodeFamilyE, hnn],
    fun _ _ hkey => ⟨exec_writes_pc_only (exec_skp_ok hkey), exec_writes_pc_only (exec_sknp_ok hkey)⟩⟩

/-- Settles O60: the wait is the one place written beside PC, so V[X] is framed with every other place
(45_timers_keys R324). -/
theorem keyWaitBegins : Obligations.KeyWaitBegins :=
  ⟨encodedBy_of_familyF (nn := 0x0A) rfl rfl fun _ hnn => by simp [decodeFamilyF, hnn],
    fun x s => ⟨_, exec_ldVxK x s, rfl, rfl, advance_setAwait_unchangedBut s (some x)⟩⟩

end Sys2Proof.Machine
end

section
/-! The load operation: what the memory it builds reads as, and the rest of the reset state (70_reset R400 to R403;
10_state R43). -/

namespace Sys2Proof.Machine

/-! ## The loaded memory -/

section
variable (initRam : Nat → Byte) (rom : List Byte)

/-- Above the font the program covers INIT_RAM, and nothing covers the font (70_reset R402, R403). -/
theorem bootMemory_read (a : Nat) : (bootMemory initRam rom).read a =
    if 0x200 ≤ a ∧ a - 0x200 < rom.length then rom.getD (a - 0x200) 0
    else if 0x050 ≤ a ∧ a < 0x1000 then initRam a
    else Memory.unlisted a := by
  rw [bootMemory, Memory.read_putBytes, Memory.read_fill, Memory.read_nil]
  rfl

theorem bootMemory_read_font {a : Nat} (h : a < 0x050) : (bootMemory initRam rom).read a = Config.font.getD a 0 := by
  rw [bootMemory_read, if_neg (by omega), if_neg (by omega)]
  exact if_pos h

theorem bootMemory_read_above_font {a : Nat} (h1 : 0x050 ≤ a) (h2 : a ≤ 0xFFF) : (bootMemory initRam rom).read a =
    if 0x200 ≤ a ∧ a - 0x200 < rom.length then rom.getD (a - 0x200) 0 else initRam a := by
  rw [bootMemory_read, if_pos (⟨h1, by omega⟩ : 0x050 ≤ a ∧ a < 0x1000)]

theorem bootMemory_wf (h : rom.length ≤ 3584) : (bootMemory initRam rom).wf :=
  have hfill := Memory.wf_fill initRam Memory.wf_nil Config.fontEnd (Config.memSize - Config.fontEnd) (by decide) (by decide)
  Memory.wf_putBytes hfill _ _ (by decide) (Nat.add_le_add_left h 0x200)

end

/-- Filling an empty memory with what an unlisted address reads as lists nothing (log 2). -/
theorem fill_initRam_nil (a n : Nat) (h : Config.fontEnd ≤ a) : Memory.fill Config.initRam [] a n = [] := by
  induction n generalizing a with
  | zero => rfl
  | succ n ih =>
    have hv : Config.initRam a = Memory.unlisted a := (if_neg (Nat.not_lt.mpr h)).symm
    rw [Memory.fill, Memory.write, if_pos hv]
    exact ih (a + 1) (by omega)

/-! ## The reset state -/

theorem reset_reg (x : RegIdx) : State.reset.reg x = 0 := Vector.getElem_replicate _

theorem reset_stack (j : Fin 12) : State.reset.stack[j] = 0 := Vector.getElem_replicate _

theorem reset_cell (x : Col) (y : Row) : cell State.reset.fb x y = false := cell_clearFB x y

/-! ## The obligations -/

/-- Settles O1: every place but memory is that of the reset state, and the loaded memory is read address by address
(10_state R43; 70_reset R402, R403). -/
theorem loadGivesResetValuesAndProgram : Obligations.LoadGivesResetValuesAndProgram := by
  intro initRam rom hlen
  refine ⟨_, load_of_fits hlen, reset_reg, rfl, rfl, rfl, reset_stack, rfl, rfl, reset_cell, rfl, rfl, rfl, rfl,
    bootMemory_wf initRam rom hlen, fun a ha => ?_⟩
  rw [State.setMem_mem]
  by_cases hfont : a < 0x050
  · rw [if_pos hfont, bootMemory_read_font _ _ hfont]
  · rw [if_neg hfont, bootMemory_read_above_font _ _ (Nat.le_of_not_lt hfont) ha]

/-- Settles O3: INIT_RAM of 0x00 is what an unlisted address reads as, so the load of no program lists nothing (log 2,
log 12). -/
theorem resetIsLoadOfEmptyProgram : Obligations.ResetIsLoadOfEmptyProgram := by
  have hmem : bootMemory Config.initRam [] = [] := by
    rw [bootMemory, fill_initRam_nil _ _ le_rfl, Memory.putBytes]
  rw [Obligations.ResetIsLoadOfEmptyProgram, load_of_fits (Nat.zero_le _), hmem]
  rfl

/-- Settles O31: memory lists nothing, every slot is zero and there is no fault record (10_state R43). -/
theorem resetMeetsTheInvariants : Obligations.ResetMeetsTheInvariants :=
  ⟨Memory.wf_nil, ⟨by decide, fun j => by rw [reset_stack]; decide⟩, by decide⟩

end Sys2Proof.Machine
end

section
/-! The memory transfers LD B, LD [I] and LD Vx, [I]: the block each reads or writes, when that block faults, and what is
left unchanged (43_index_memory R250, R254 to R256; 60_exceptions R369). -/

namespace Sys2Proof.Machine

/-- A frame holds for every larger set of written places. -/
theorem unchangedBut_mono {W W' : Place → Prop} {s t : State} (h : unchangedBut W s t) (hW : ∀ p, W p → W' p) :
    unchangedBut W' s t :=
  fun p hp => h p (mt (hW p) hp)

/-! ## Blocks and their faults -/

section
variable {m : Memory} {a n : Nat} {bs : List Byte} {tr : Trap}

theorem readTrap_eq_none_iff : readTrap a n = none ↔ n = 0 ∨ a + n ≤ 0x1000 := by
  simp only [readTrap, ite_eq_right_iff, reduceCtorEq, imp_false]
  omega

theorem readTrap_eq_some_iff : readTrap a n = some tr ↔
    (0 < n ∧ 0x1000 < a + n) ∧ tr = ⟨.memoryOutOfRange, some (max a 0x1000), none⟩ := by
  have hbound : (0 < n ∧ 0xFFF < a + (n - 1)) ↔ 0 < n ∧ 0x1000 < a + n := by omega
  simp only [readTrap, hbound, Option.ite_none_right_eq_some, Option.some.injEq, @eq_comm _ tr]

/-- A block read raises exactly what `readTrap` says (60_exceptions R364, R369). -/
theorem readBlock_of_readTrap_some (h : readTrap a n = some tr) : readBlock m a n = .error tr := by
  obtain ⟨⟨hpos, hout⟩, rfl⟩ := readTrap_eq_some_iff.mp h
  exact readBlock_error m a n hpos hout

theorem readBlock_of_readTrap_none (h : readTrap a n = none) :
    readBlock m a n = .ok ((List.range n).map fun k => m.read (a + k)) := by
  rcases readTrap_eq_none_iff.mp h with rfl | hin
  · rfl
  · exact readBlock_ok m a n hin

/-- A block write raises exactly what `writeTrap` says (60_exceptions R364, R365, R369). -/
theorem writeBlock_of_writeTrap_some (hbs : bs ≠ []) (h : writeTrap a bs.length = some tr) :
    writeBlock m a bs = .error tr := by
  unfold writeTrap at h
  split at h
  · next hfont =>
    cases h
    obtain ⟨b, bs, rfl⟩ := List.exists_cons_of_ne_nil hbs
    exact writeBlock_font m a b bs hfont
  · next hfont =>
    obtain ⟨⟨-, hout⟩, rfl⟩ := readTrap_eq_some_iff.mp h
    exact writeBlock_error m a bs hbs (Nat.le_of_not_lt hfont) hout

theorem writeTrap_eq_none_iff : writeTrap a n = none ↔ 0x050 ≤ a ∧ (n = 0 ∨ a + n ≤ 0x1000) := by
  unfold writeTrap
  split
  · next hfont => simp [hfont]
  · next hfont => rw [readTrap_eq_none_iff, and_iff_right (Nat.le_of_not_lt hfont)]

theorem writeBlock_of_writeTrap_none (hbs : bs ≠ []) (h : writeTrap a bs.length = none) :
    writeBlock m a bs = .ok (Memory.putBytes m a bs) := by
  obtain ⟨hfont, hlen | hin⟩ := writeTrap_eq_none_iff.mp h
  · exact absurd (List.eq_nil_of_length_eq_zero hlen) hbs
  · exact writeBlock_ok m a bs hfont hin

end

/-! ## What each transfer answers -/

section
variable {s : State} {x : RegIdx} {tr : Trap}

theorem storeAtI_ok {bs : List Byte} (hbs : bs ≠ []) (h : writeTrap s.i.toNat bs.length = none) :
    storeAtI s bs = .ok (s.advance.setMem (Memory.putBytes s.mem s.i.toNat bs)) := by
  simp only [storeAtI, State.effAddr, Nat.add_zero, writeBlock_of_writeTrap_none hbs h]

theorem storeAtI_error {bs : List Byte} (hbs : bs ≠ []) (h : writeTrap s.i.toNat bs.length = some tr) :
    storeAtI s bs = .error tr := by
  simp only [storeAtI, State.effAddr, Nat.add_zero, writeBlock_of_writeTrap_some hbs h]

theorem bcdDigits_length (b : Byte) : (bcdDigits b).length = 3 := rfl

theorem bcdDigits_ne_nil (b : Byte) : bcdDigits b ≠ [] := List.cons_ne_nil _ _

theorem regBlock_ne_nil (s : State) (x : RegIdx) : s.regBlock x ≠ [] :=
  List.ne_nil_of_length_eq_add_one (s.regBlock_length x)

theorem exec_ldB_ok (h : writeTrap s.i.toNat 3 = none) : exec (.ldB x) s =
    .next (s.advance.setMem (Memory.putBytes s.mem s.i.toNat (bcdDigits (s.reg x)))) := by
  simp only [exec, execLdB, storeAtI_ok (bcdDigits_ne_nil _) h, complete_ok]

theorem exec_ldB_error (h : writeTrap s.i.toNat 3 = some tr) :
    exec (.ldB x) s = .next (takeFault s (some (encode (.ldB x))) tr) := by
  simp only [exec, execLdB, storeAtI_error (bcdDigits_ne_nil _) h, complete_error]

theorem exec_ldMemStore_ok (h : writeTrap s.i.toNat (x.val + 1) = none) : exec (.ldMemStore x) s =
    .next (s.advance.setMem (Memory.putBytes s.mem s.i.toNat (s.regBlock x))) := by
  rw [← s.regBlock_length] at h
  simp only [exec, execLdMemStore, storeAtI_ok (regBlock_ne_nil s x) h, complete_ok]

theorem exec_ldMemStore_error (h : writeTrap s.i.toNat (x.val + 1) = some tr) :
    exec (.ldMemStore x) s = .next (takeFault s (some (encode (.ldMemStore x))) tr) := by
  rw [← s.regBlock_length] at h
  simp only [exec, execLdMemStore, storeAtI_error (regBlock_ne_nil s x) h, complete_error]

theorem exec_ldMemLoad_ok (h : readTrap s.i.toNat (x.val + 1) = none) : exec (.ldMemLoad x) s =
    .next (s.advance.setV (overlayRegs s.v ((List.range (x.val + 1)).map fun k => s.mem.read (s.effAddr k)))) := by
  simp only [exec, execLdMemLoad, State.effAddr, Nat.add_zero, readBlock_of_readTrap_none h, complete_ok]

theorem exec_ldMemLoad_error (h : readTrap s.i.toNat (x.val + 1) = some tr) :
    exec (.ldMemLoad x) s = .next (takeFault s (some (encode (.ldMemLoad x))) tr) := by
  simp only [exec, execLdMemLoad, State.effAddr, Nat.add_zero, readBlock_of_readTrap_some h, complete_error]

end

/-! ## Storing a block at I -/

theorem putBytes_read_effAddr (s : State) {bs : List Byte} {k : Nat} (hk : k < bs.length) :
    (Memory.putBytes s.mem s.i.toNat bs).read (s.effAddr k) = bs.getD k 0 := by
  rw [State.effAddr, Memory.read_putBytes, if_pos ⟨Nat.le_add_right _ _, by omega⟩, Nat.add_sub_cancel_left]

theorem advance_putBytes_unchangedBut (s : State) (bs : List Byte) :
    unchangedBut (fun p => p = .pc ∨ ∃ k, k < bs.length ∧ p = .mem (s.effAddr k)) s
      (s.advance.setMem (Memory.putBytes s.mem s.i.toNat bs)) := by
  intro p hp
  cases p with
  | pc => exact absurd (.inl rfl) hp
  | mem a =>
    have hout : ¬ (s.i.toNat ≤ a ∧ a - s.i.toNat < bs.length) := fun ⟨hle, hlt⟩ =>
      hp (.inr ⟨_, hlt, congrArg Place.mem (Nat.add_sub_cancel' hle).symm⟩)
    exact (Memory.read_putBytes _ _ _ _).trans (if_neg hout)
  | _ => rfl

/-- An instruction that answers the advanced state with a block stored at I: byte `k` of the block is at I + k, and the rest
is as it was (43_index_memory R250). -/
theorem exec_stores_block {i : Instr} {s : State} {bs : List Byte}
    (h : exec i s = .next (s.advance.setMem (Memory.putBytes s.mem s.i.toNat bs))) :
    ∃ t, exec i s = .next t ∧ (∀ k, k < bs.length → t.mem.read (s.effAddr k) = bs.getD k 0) ∧ t.pc = s.pc + 2 ∧
      unchangedBut (fun p => p = .pc ∨ ∃ k, k < bs.length ∧ p = .mem (s.effAddr k)) s t :=
  ⟨_, h, fun _ hk => putBytes_read_effAddr s hk, rfl, advance_putBytes_unchangedBut s bs⟩

/-! ## The stored blocks -/

theorem ofNat_byte_toNat {n : Nat} (h : n < 256) : (BitVec.ofNat 8 n).toNat = n :=
  (BitVec.toNat_ofNat n 8).trans (Nat.mod_eq_of_lt h)

/-- The three digits as numbers: each is below 256 (43_index_memory R254). -/
theorem bcdDigits_toNat (b : Byte) : ((bcdDigits b).getD 0 0).toNat = b.toNat / 100 ∧
    ((bcdDigits b).getD 1 0).toNat = b.toNat / 10 % 10 ∧ ((bcdDigits b).getD 2 0).toNat = b.toNat % 10 :=
  ⟨ofNat_byte_toNat (by omega), ofNat_byte_toNat (by omega), ofNat_byte_toNat (by omega)⟩

theorem regBlock_getD (s : State) {x r : RegIdx} (h : r.val ≤ x.val) : (s.regBlock x).getD r.val 0 = s.reg r := by
  have hlt : r.val < (s.regBlock x).length := by rw [s.regBlock_length]; omega
  rw [List.getD_eq_getElem _ _ hlt, State.regBlock_getElem]

/-- What LD [I], Vx stores, register by register (43_index_memory R255). -/
theorem exec_ldMemStore_stores {s : State} {x : RegIdx} (h1 : 0x050 ≤ s.i.toNat) (h2 : s.i.toNat + x.val ≤ 0xFFF) :
    ∃ t, exec (.ldMemStore x) s = .next t ∧
      (∀ r : RegIdx, r.val ≤ x.val → t.mem.read (s.effAddr r.val) = s.reg r) ∧ t.pc = s.pc + 2 ∧
      unchangedBut (fun p => p = .pc ∨ ∃ k, k ≤ x.val ∧ p = .mem (s.effAddr k)) s t := by
  have hno : writeTrap s.i.toNat (x.val + 1) = none := writeTrap_eq_none_iff.mpr ⟨h1, .inr (by omega)⟩
  obtain ⟨t, hexec, hread, hpc, hframe⟩ := exec_stores_block (exec_ldMemStore_ok hno)
  simp only [s.regBlock_length, Nat.lt_succ_iff] at hread hframe
  exact ⟨t, hexec, fun r hr => (hread r.val hr).trans (regBlock_getD s hr), hpc, hframe⟩

/-! ## Loading a block from I -/

theorem State.setV_reg (s : State) (w : Vector Byte 16) (r : RegIdx) : (s.setV w).reg r = w[r] := rfl

theorem overlayRegs_range_getElem (v : Vector Byte 16) (f : Nat → Byte) (n : Nat) (r : RegIdx) :
    (overlayRegs v ((List.range n).map f))[r] = if r.val < n then f r.val else v[r] := by
  rw [overlayRegs_getElem]
  split
  · next h => simp [h]
  · next h => exact List.getD_eq_default _ _ (by simpa using h)

theorem advance_setV_unchangedBut (s : State) (x : RegIdx) {w : Vector Byte 16}
    (h : ∀ r : RegIdx, ¬ r.val ≤ x.val → w[r] = s.v[r]) :
    unchangedBut (fun p => p = .pc ∨ ∃ r : RegIdx, r.val ≤ x.val ∧ p = .reg r) s (s.advance.setV w) := by
  intro p hp
  cases p with
  | pc => exact absurd (.inl rfl) hp
  | reg r => exact h r fun hr => hp (.inr ⟨r, hr, rfl⟩)
  | _ => rfl

theorem overlayRegs_unchanged (v : Vector Byte 16) (f : Nat → Byte) (x r : RegIdx) (h : ¬ r.val ≤ x.val) :
    (overlayRegs v ((List.range (x.val + 1)).map f))[r] = v[r] := by
  rw [overlayRegs_range_getElem, if_neg (mt Nat.le_of_lt_succ h)]

/-! ## The obligations -/

/-- Settles O50: LD B stores its three digits as one block (43_index_memory R254). -/
theorem bcdStoresDecimalDigits : Obligations.BcdStoresDecimalDigits := by
  refine ⟨encodedBy_of_familyF (nn := 0x33) rfl rfl fun _ hnn => by simp [decodeFamilyF, hnn], fun x s h1 h2 => ?_⟩
  have hno : writeTrap s.i.toNat 3 = none := writeTrap_eq_none_iff.mpr ⟨h1, .inr (by omega)⟩
  obtain ⟨t, hexec, hread, hpc, hframe⟩ := exec_stores_block (exec_ldB_ok (x := x) hno)
  simp only [bcdDigits_length] at hread hframe
  obtain ⟨hhundreds, htens, hunits⟩ := bcdDigits_toNat (s.reg x)
  refine ⟨t, hexec, by rw [hread 0 (by decide), hhundreds], by rw [hread 1 (by decide), htens],
    by rw [hread 2 (by decide), hunits], hpc, unchangedBut_mono hframe ?_⟩
  rintro p (hpc | ⟨k, hk, rfl⟩)
  · exact .inl hpc
  · interval_cases k <;> simp

/-- Settles O51: the stored block is V[0] to V[X] (43_index_memory R255). -/
theorem storeRegistersAtI : Obligations.StoreRegistersAtI :=
  ⟨encodedBy_of_familyF (nn := 0x55) rfl rfl fun _ hnn => by simp [decodeFamilyF, hnn],
    fun _ _ h1 h2 => exec_ldMemStore_stores h1 h2⟩

/-- Settles O52: the load reads its whole block or raises before it writes (43_index_memory R256). -/
theorem loadRegistersFromI : Obligations.LoadRegistersFromI := by
  refine ⟨encodedBy_of_familyF (nn := 0x65) rfl rfl fun _ hnn => by simp [decodeFamilyF, hnn],
    fun x s => ⟨fun hin => ?_, fun hout => ?_⟩⟩
  · refine ⟨_, exec_ldMemLoad_ok (readTrap_eq_none_iff.mpr (.inr (by omega))), fun r hr => ?_, rfl,
      advance_setV_unchangedBut s x (overlayRegs_unchanged s.v _ x)⟩
    rw [State.setV_reg, overlayRegs_range_getElem, if_pos (Nat.lt_succ_of_le hr)]
  · exact exec_ldMemLoad_error (readTrap_eq_some_iff.mpr ⟨⟨by omega, by omega⟩, rfl⟩)

/-- Settles O53: the two stored bytes are at I + r and the address after it, which is where the fetch reads its word
(20_memory R66, R75). -/
theorem storedBytesAreFetched : Obligations.StoredBytesAreFetched := by
  intro x r q s t u h1 h2 hq hqx hstore hmem hpc
  obtain ⟨t', hexec, hread, -, -⟩ := exec_ldMemStore_stores h1 h2
  cases hexec.symm.trans hstore
  have hin : u.pc.toNat ≤ 0xFFE := by rw [hpc, State.effAddr]; omega
  have hnext : s.effAddr r.val + 1 = s.effAddr q.val := by rw [hq]; rfl
  refine ⟨_, fetch_ok u hin, ?_⟩
  rw [wordAt, bigEndian_toNat, hmem, hpc, hnext, hread r (by omega), hread q hqx]

end Sys2Proof.Machine
end

section
/-! The framebuffer instructions. A draw is seen as the list of the cells its set sprite bits cover, no cell twice, each
plotted once: so a cell flips exactly when it is in the list, and a collision is a listed cell that was lit
(44_display R290 to R293). -/

namespace Sys2Proof.Machine

/-! ## Plotting a list of cells -/

/-- The cells of a list plotted one after another. -/
def plotAll (l : List (Col × Row)) (c : Canvas) : Canvas := l.foldl (fun acc q => plot acc q.1 q.2) c

theorem plotAll_append (l l' : List (Col × Row)) (c : Canvas) : plotAll (l ++ l') c = plotAll l' (plotAll l c) :=
  List.foldl_append

theorem cell_plot_of_ne (c : Canvas) {q r : Col × Row} (h : r ≠ q) :
    cell (plot c q.1 q.2).fb r.1 r.2 = cell c.fb r.1 r.2 := by
  rw [plot_fb, cell_flipCell, if_neg (mt (fun ⟨hx, hy⟩ => Prod.ext hx hy) h)]

/-- Each cell of a list without repetition flips once, and no other cell changes. -/
theorem cell_plotAll {l : List (Col × Row)} (hl : l.Nodup) (c : Canvas) (r : Col × Row) :
    cell (plotAll l c).fb r.1 r.2 = (cell c.fb r.1 r.2 ^^ decide (r ∈ l)) := by
  induction l generalizing c with
  | nil => simp [plotAll]
  | cons q l ih =>
    obtain ⟨hq, hl⟩ := List.nodup_cons.mp hl
    have htail := ih hl (plot c q.1 q.2)
    by_cases hr : r = q
    · subst hr
      simpa [plotAll, plot_fb, cell_flipCell, hq] using htail
    · simpa [plotAll, cell_plot_of_ne c hr, hr] using htail

/-- A collision is a lit cell of the list: no earlier plot has changed it (44_display R293). -/
theorem plotAll_hit {l : List (Col × Row)} (hl : l.Nodup) (c : Canvas) :
    (plotAll l c).hit = true ↔ c.hit = true ∨ ∃ r ∈ l, cell c.fb r.1 r.2 = true := by
  induction l generalizing c with
  | nil => simp [plotAll]
  | cons q l ih =>
    obtain ⟨hq, hl⟩ := List.nodup_cons.mp hl
    have hsame : (∃ r ∈ l, cell (plot c q.1 q.2).fb r.1 r.2 = true) ↔ ∃ r ∈ l, cell c.fb r.1 r.2 = true :=
      exists_congr fun r => and_congr_right fun hr => by rw [cell_plot_of_ne c (ne_of_mem_of_not_mem hr hq)]
    have htail := ih hl (plot c q.1 q.2)
    rw [hsame, plot_hit, Bool.or_eq_true, or_assoc] at htail
    rw [List.exists_mem_cons_iff]
    exact htail

/-! ## The cells a sprite covers -/

/-- The cells that the set bits of one sprite row cover, in screen row `y`. -/
def rowCells (x0 : Nat) (y : Row) (row : Byte) : List (Col × Row) :=
  ((List.range 8).filter (spriteBit row)).map fun k => (wrapCol x0 k, y)

/-- The cells that the sprite rows from row offset `r` down cover. -/
def coveredCells (x0 y0 : Nat) : Nat → List Byte → List (Col × Row)
  | _, [] => []
  | r, row :: rows => rowCells x0 (wrapRow y0 r) row ++ coveredCells x0 y0 (r + 1) rows

theorem drawRow_eq_plotAll (x0 : Nat) (y : Row) (row : Byte) (c : Canvas) :
    drawRow x0 y row c = plotAll (rowCells x0 y row) c := by
  rw [plotAll, rowCells, List.foldl_map, List.foldl_filter, drawRow]

theorem drawRows_eq_plotAll (x0 y0 r : Nat) (rows : List Byte) (c : Canvas) :
    drawRows x0 y0 r rows c = plotAll (coveredCells x0 y0 r rows) c := by
  induction rows generalizing r c with
  | nil => rfl
  | cons row rows ih => rw [drawRows, coveredCells, plotAll_append, ih, drawRow_eq_plotAll]

/-! ### Which cells they are -/

section
variable {x0 y0 : Nat} {y : Row} {row : Byte} {rows : List Byte} {r : Nat} {q : Col × Row}

theorem mem_rowCells : q ∈ rowCells x0 y row ↔ ∃ k, (k < 8 ∧ spriteBit row k = true) ∧ (wrapCol x0 k, y) = q := by
  simp only [rowCells, List.mem_map, List.mem_filter, List.mem_range]

theorem mem_coveredCells : q ∈ coveredCells x0 y0 r rows ↔
    ∃ j, j < rows.length ∧ q ∈ rowCells x0 (wrapRow y0 (r + j)) (rows.getD j 0) := by
  induction rows generalizing r with
  | nil => simp [coveredCells]
  | cons row rows ih =>
    rw [coveredCells, List.mem_append, ih, List.length_cons, Nat.exists_lt_succ_left]
    simp only [List.getD_cons_zero, List.getD_cons_succ, Nat.add_zero, Nat.add_assoc, Nat.add_comm 1]

theorem wrapCol_eq_iff (hx : x0 < 64) {k : Nat} (hk : k < 64) (px : Col) :
    wrapCol x0 k = px ↔ k = (px.val + 64 - x0) % 64 := by
  rw [Fin.ext_iff, wrapCol, Fin.val_ofNat]
  omega

theorem wrapRow_eq_iff (hy : y0 < 32) {j : Nat} (hj : j < 32) (py : Row) :
    wrapRow y0 j = py ↔ j = (py.val + 32 - y0) % 32 := by
  rw [Fin.ext_iff, wrapRow, Fin.val_ofNat]
  omega

/-- A cell is covered when the row and the bit that its distance from the top left corner names are in the sprite
(44_display R292). -/
theorem mem_coveredCells_iff (hx : x0 < 64) (hy : y0 < 32) (hlen : rows.length ≤ 32) (px : Col) (py : Row) :
    (px, py) ∈ coveredCells x0 y0 0 rows ↔ (px.val + 64 - x0) % 64 < 8 ∧ (py.val + 32 - y0) % 32 < rows.length ∧
      spriteBit (rows.getD ((py.val + 32 - y0) % 32) 0) ((px.val + 64 - x0) % 64) = true := by
  simp only [mem_coveredCells, mem_rowCells, Prod.mk.injEq, Nat.zero_add]
  constructor
  · rintro ⟨j, hj, k, ⟨hk, hbit⟩, hcol, hrow⟩
    rw [← (wrapCol_eq_iff hx (by omega) px).mp hcol, ← (wrapRow_eq_iff hy (by omega) py).mp hrow]
    exact ⟨hk, hj, hbit⟩
  · rintro ⟨hk, hj, hbit⟩
    exact ⟨_, hj, _, ⟨hk, hbit⟩, (wrapCol_eq_iff hx (by omega) px).mpr rfl, (wrapRow_eq_iff hy (by omega) py).mpr rfl⟩

/-! ### No cell twice -/

theorem rowCells_nodup (hx : x0 < 64) : (rowCells x0 y row).Nodup := by
  refine (List.nodup_range.filter _).map_on fun k hk l hl heq => ?_
  simp only [List.mem_filter, List.mem_range] at hk hl
  have hcol : wrapCol x0 k = wrapCol x0 l := congrArg Prod.fst heq
  rw [(wrapCol_eq_iff hx (by omega) _).mp hcol, ← (wrapCol_eq_iff hx (by omega) _).mp rfl]

theorem coveredCells_nodup (hx : x0 < 64) (hy : y0 < 32) (hlen : r + rows.length ≤ 32) :
    (coveredCells x0 y0 r rows).Nodup := by
  induction rows generalizing r with
  | nil => exact List.nodup_nil
  | cons row rows ih =>
    rw [List.length_cons] at hlen
    refine (rowCells_nodup hx).append (ih (by omega)) fun q hq hq' => ?_
    obtain ⟨k, -, rfl⟩ := mem_rowCells.mp hq
    obtain ⟨j, hj, hmem⟩ := mem_coveredCells.mp hq'
    obtain ⟨l, -, heq⟩ := mem_rowCells.mp hmem
    have hrow := (wrapRow_eq_iff hy (by omega) (wrapRow y0 r)).mp (congrArg Prod.snd heq)
    have hself := (wrapRow_eq_iff hy (by omega) (wrapRow y0 r)).mp rfl
    omega

end

/-! ## The sprite of a DRW -/

/-- The `n` bytes at I. -/
def spriteRows (n : Nibble) (s : State) : List Byte := (List.range n.toNat).map fun k => s.mem.read (s.effAddr k)

/-- The cells a DRW plots: its sprite at (V[x] mod 64, V[y] mod 32). -/
def spriteCells (x y : RegIdx) (n : Nibble) (s : State) : List (Col × Row) :=
  coveredCells ((s.reg x).toNat % 64) ((s.reg y).toNat % 32) 0 (spriteRows n s)

section
variable {x y : RegIdx} {n : Nibble} {s : State}

theorem spriteRows_length : (spriteRows n s).length = n.toNat := by
  rw [spriteRows, List.length_map, List.length_range]

theorem spriteRows_getD {r : Nat} (h : r < n.toNat) : (spriteRows n s).getD r 0 = s.mem.read (s.effAddr r) := by
  simp [spriteRows, h]

theorem spriteCells_nodup : (spriteCells x y n s).Nodup :=
  coveredCells_nodup (Nat.mod_lt _ (by decide)) (Nat.mod_lt _ (by decide)) (by rw [spriteRows_length]; omega)

/-- The covered cells as the statements speak of them. -/
theorem decide_mem_spriteCells (px : Col) (py : Row) : decide ((px, py) ∈ spriteCells x y n s) =
    (decide ((px.val + 64 - (s.reg x).toNat % 64) % 64 < 8) &&
      decide ((py.val + 32 - (s.reg y).toNat % 32) % 32 < n.toNat) &&
      (s.mem.read (s.effAddr ((py.val + 32 - (s.reg y).toNat % 32) % 32))).getLsbD
        (7 - (px.val + 64 - (s.reg x).toNat % 64) % 64)) := by
  have hiff := mem_coveredCells_iff (x0 := (s.reg x).toNat % 64) (y0 := (s.reg y).toNat % 32) (rows := spriteRows n s)
    (Nat.mod_lt _ (by decide)) (Nat.mod_lt _ (by decide)) (by rw [spriteRows_length]; omega) px py
  rw [Bool.eq_iff_iff, decide_eq_true_iff, spriteCells, hiff, spriteRows_length]
  simp only [Bool.and_eq_true, decide_eq_true_iff, and_assoc]
  exact and_congr_right fun _ => and_congr_right fun hr => by rw [spriteRows_getD hr, spriteBit]

/-- The sprite covers some cell exactly when it has a set bit. -/
theorem exists_mem_spriteCells : (∃ q, q ∈ spriteCells x y n s) ↔
    ∃ r k, r < n.toNat ∧ k < 8 ∧ (s.mem.read (s.effAddr r)).getLsbD k = true := by
  simp only [spriteCells, mem_coveredCells, mem_rowCells, spriteRows_length]
  constructor
  · rintro ⟨-, r, hr, k, ⟨hk, hbit⟩, -⟩
    rw [spriteRows_getD hr] at hbit
    exact ⟨r, 7 - k, hr, by omega, hbit⟩
  · rintro ⟨r, k, hr, hk, hbit⟩
    refine ⟨_, r, hr, 7 - k, ⟨by omega, ?_⟩, rfl⟩
    rwa [spriteRows_getD hr, spriteBit, Nat.sub_sub_self (Nat.le_of_lt_succ hk)]

/-! ## What each instruction answers -/

theorem exec_cls (s : State) : exec .cls s = .next (s.advance.setFB clearFB) := rfl

theorem exec_drw_ok (h : readTrap s.i.toNat n.toNat = none) : exec (.drw x y n) s =
    .next ((s.advance.setFB (plotAll (spriteCells x y n s) ⟨s.fb, false⟩).fb).setReg VF
      (flagOf (plotAll (spriteCells x y n s) ⟨s.fb, false⟩).hit)) := by
  have hread : readBlock s.mem (s.effAddr 0) n.toNat = .ok (spriteRows n s) := readBlock_of_readTrap_none h
  simp only [exec, execDrw, hread, complete_ok, drawRows_eq_plotAll, spriteCells]

theorem exec_drw_error {tr : Trap} (h : readTrap s.i.toNat n.toNat = some tr) :
    exec (.drw x y n) s = .next (takeFault s (some (encode (.drw x y n))) tr) := by
  have hread : readBlock s.mem (s.effAddr 0) n.toNat = .error tr := readBlock_of_readTrap_some h
  simp only [exec, execDrw, hread, complete_error]

theorem flagOf_eq_one_iff (c : Bool) : flagOf c = 1 ↔ c = true := by
  cases c <;> decide

/-! ## What each leaves unchanged -/

theorem advance_setFB_unchangedBut (s : State) (g : Framebuffer) :
    unchangedBut (fun p => p = .pc ∨ ∃ px py, p = .cell px py) s (s.advance.setFB g) := by
  intro p hp
  cases p with
  | pc => exact absurd (.inl rfl) hp
  | cell px py => exact absurd (.inr ⟨px, py, rfl⟩) hp
  | _ => rfl

theorem advance_setFB_setReg_unchangedBut (s : State) (g : Framebuffer) (x : RegIdx) (b : Byte) :
    unchangedBut (fun p => p = .pc ∨ p = .reg x ∨ ∃ px py, p = .cell px py) s ((s.advance.setFB g).setReg x b) := by
  intro p hp
  cases p with
  | pc => exact absurd (.inl rfl) hp
  | reg r =>
    have hr : r ≠ x := fun h => hp (.inr (.inl (congrArg Place.reg h)))
    exact State.setReg_reg_ne (s.advance.setFB g) b hr
  | cell px py => exact absurd (.inr (.inr ⟨px, py, rfl⟩)) hp
  | _ => rfl

/-- What a DRW that completes answers: every cell of its sprite flips, and VF is 1 exactly when one of them was lit
(44_display R292, R293). -/
theorem exec_drw_draws (h : n.toNat = 0 ∨ s.i.toNat + n.toNat ≤ 0x1000) : ∃ t, exec (.drw x y n) s = .next t ∧
    (∀ px py, cell t.fb px py = (cell s.fb px py ^^ decide ((px, py) ∈ spriteCells x y n s))) ∧
    (∃ c, t.reg VF = flagOf c ∧ (c = true ↔ ∃ q ∈ spriteCells x y n s, cell s.fb q.1 q.2 = true)) ∧ t.pc = s.pc + 2 ∧
    unchangedBut (fun p => p = .pc ∨ p = .reg VF ∨ ∃ px py, p = .cell px py) s t := by
  have hnodup : (spriteCells x y n s).Nodup := spriteCells_nodup
  refine ⟨_, exec_drw_ok (readTrap_eq_none_iff.mpr h), fun px py => cell_plotAll hnodup ⟨s.fb, false⟩ (px, py),
    ⟨_, State.setReg_reg_self _ _ _, by simp only [plotAll_hit hnodup, Bool.false_eq_true, false_or]⟩, rfl, ?_⟩
  exact advance_setFB_setReg_unchangedBut s _ VF _

end

/-! ## The obligations -/

/-- Settles O54: CLS replaces the framebuffer by the cleared one (44_display R291). -/
theorem clsUnlightsEveryCell : Obligations.ClsUnlightsEveryCell :=
  ⟨rfl, fun s => ⟨_, exec_cls s, cell_clearFB, rfl, advance_setFB_unchangedBut s clearFB⟩⟩

/-- Settles O55: the covered cells of the statement are the cells of the sprite (44_display R292, R293). -/
theorem drawXorsSpriteWithCollision : Obligations.DrawXorsSpriteWithCollision := by
  refine ⟨encodedBy_of_family fun _ => decode_of_familyD, fun x y n s hin => ?_⟩
  obtain ⟨t, hexec, hcell, ⟨c, hVF, hhit⟩, hpc, hframe⟩ := exec_drw_draws (x := x) (y := y) hin
  have hlit : c = true ↔ ∃ px py, decide ((px, py) ∈ spriteCells x y n s) = true ∧ cell s.fb px py = true := by
    simp only [hhit, Prod.exists, decide_eq_true_iff]
  simp only [decide_mem_spriteCells] at hcell hlit
  refine ⟨t, hexec, hcell, fun h => ?_, fun h => ?_, hpc, hframe⟩
  · rw [hVF, hlit.mpr h]; rfl
  · rw [hVF, Bool.eq_false_iff.mpr (mt hlit.mp h)]; rfl

/-- Settles O56: the second draw has the same sprite, so every cell of it flips back; from an unlit framebuffer the lit cells
it finds are the sprite's own (44_display R294). -/
theorem secondDrawRestores : Obligations.SecondDrawRestores := by
  intro x y n s t u v hin hfirst hfb hi hmem hx hy hsecond
  have hsprite : spriteCells x y n u = spriteCells x y n s := by
    simp only [spriteCells, spriteRows, State.effAddr, hi, hmem, hx, hy]
  obtain ⟨t', hexec, hcell, -⟩ := exec_drw_draws (x := x) (y := y) hin
  cases hexec.symm.trans hfirst
  obtain ⟨v', hexec', hcell', ⟨c, hVF, hhit⟩, -⟩ := exec_drw_draws (x := x) (y := y) (s := u) (hi.symm ▸ hin)
  cases hexec'.symm.trans hsecond
  rw [hsprite, hfb] at hhit
  refine ⟨fun px py => ?_, fun hunlit => ?_⟩
  · rw [hcell', hfb, hcell, hsprite, Bool.xor_assoc, Bool.xor_self, Bool.xor_false]
  · rw [hVF, flagOf_eq_one_iff, hhit, ← exists_mem_spriteCells (x := x) (y := y)]
    simp [hcell, hunlit]

end Sys2Proof.Machine
end

section
/-! The faults and the frame of every instruction: what `exec` answers where `trapOf` names a fault, and which places it
writes where it names none (60_exceptions R360, R369; 10_state R23). -/

namespace Sys2Proof.Machine

/-! ## The timer writes -/

theorem exec_ldDTVx (x : RegIdx) (s : State) : exec (.ldDTVx x) s = .next (s.advance.setDT (s.reg x)) := rfl

theorem exec_ldSTVx (x : RegIdx) (s : State) : exec (.ldSTVx x) s = .next (s.advance.setST (s.reg x)) := rfl

theorem advance_setDT_unchangedBut (s : State) (b : Byte) :
    unchangedBut (fun p => p = .pc ∨ p = .dt) s (s.advance.setDT b) := by
  intro p hp
  cases p with
  | pc => exact absurd (.inl rfl) hp
  | dt => exact absurd (.inr rfl) hp
  | _ => rfl

theorem advance_setST_unchangedBut (s : State) (b : Byte) :
    unchangedBut (fun p => p = .pc ∨ p = .st) s (s.advance.setST b) := by
  intro p hp
  cases p with
  | pc => exact absurd (.inl rfl) hp
  | st => exact absurd (.inr rfl) hp
  | _ => rfl

/-! ## Where an instruction faults -/

/-- Where `trapOf` names a fault, that fault is taken, from the state before the step (40_cycle R127). -/
theorem exec_of_trapOf_some {i : Instr} {s : State} {tr : Trap} (h : trapOf i s = some tr) :
    exec i s = .next (takeFault s (some (encode i)) tr) := by
  cases i with
  | ret => obtain ⟨hsp, ⟨⟩⟩ := Option.ite_none_right_eq_some.mp h; exact exec_ret_empty hsp
  | call nnn => obtain ⟨hsp, ⟨⟩⟩ := Option.ite_none_right_eq_some.mp h; exact exec_call_full nnn hsp
  | skp x => obtain ⟨hkey, ⟨⟩⟩ := Option.ite_none_right_eq_some.mp h; exact exec_skp_badKey hkey
  | sknp x => obtain ⟨hkey, ⟨⟩⟩ := Option.ite_none_right_eq_some.mp h; exact exec_sknp_badKey hkey
  | drw x y n => exact exec_drw_error h
  | ldB x => exact exec_ldB_error h
  | ldMemStore x => exact exec_ldMemStore_error h
  | ldMemLoad x => exact exec_ldMemLoad_error h
  | _ => cases h

/-! ## Where the stack and key instructions do not -/

section
variable {s : State}

theorem not_of_ite_some_eq_none {α : Type} {c : Prop} [Decidable c] {a : α}
    (h : (if c then some a else none) = none) : ¬ c := by
  intro hc
  rw [if_pos hc] at h
  cases h

theorem exec_ret_of_trapOf_none (h : trapOf .ret s = none) :
    ∃ d : Fin 12, exec .ret s = .next ((s.setStack s.stack d.castSucc).setPC s.stack[d]) := by
  have hsp : s.sp.val ≠ 0 := fun h0 => not_of_ite_some_eq_none h (Fin.ext h0)
  have hd : s.sp.val = (s.sp.val - 1) + 1 := by omega
  exact ⟨⟨s.sp.val - 1, by omega⟩, exec_ret_ok hd⟩

theorem exec_call_of_trapOf_none {nnn : Addr12} (h : trapOf (.call nnn) s = none) :
    ∃ d : Fin 12, d.val = s.sp.val ∧
      exec (.call nnn) s = .next ((s.setStack (s.stack.set d (s.pc + 2)) d.succ).setPC (zext16 nnn)) := by
  have hsp : s.sp.val ≠ 12 := fun h12 => not_of_ite_some_eq_none h (Fin.ext h12)
  exact ⟨⟨s.sp.val, by omega⟩, rfl, exec_call_ok nnn rfl⟩

theorem exec_skp_of_trapOf_none {x : RegIdx} (h : trapOf (.skp x) s = none) : exec (.skp x) s =
    .next (s.setPC (if s.keypad.getLsbD (s.reg x).toNat = true then s.pc + 4 else s.pc + 2)) :=
  exec_skp_ok (Nat.le_of_not_lt (not_of_ite_some_eq_none h))

theorem exec_sknp_of_trapOf_none {x : RegIdx} (h : trapOf (.sknp x) s = none) : exec (.sknp x) s =
    .next (s.setPC (if s.keypad.getLsbD (s.reg x).toNat = true then s.pc + 2 else s.pc + 4)) :=
  exec_sknp_ok (Nat.le_of_not_lt (not_of_ite_some_eq_none h))

end

/-- The six skips (41_control R160; 45_timers_keys R321, R322). -/
def isSkip : Instr → Bool
  | .seImm _ _ | .sneImm _ _ | .seReg _ _ | .sneReg _ _ | .skp _ | .sknp _ => true
  | _ => false

theorem eq_setPC_of_ite {i : Instr} {s t : State} {c : Prop} [Decidable c] {a b : Word}
    (h : exec i s = .next (s.setPC (if c then a else b))) (ht : exec i s = .next t) :
    t = s.setPC a ∨ t = s.setPC b := by
  cases h.symm.trans ht
  exact (ite_eq_or_eq c a b).imp (congrArg s.setPC) (congrArg s.setPC)

/-- A skip that completes answers the state with PC = a + 4 or a + 2 (41_control R160). -/
theorem exec_skip_cases {i : Instr} {s t : State} (hi : isSkip i = true) (h : trapOf i s = none)
    (ht : exec i s = .next t) : t = s.setPC (s.pc + 4) ∨ t = s.setPC (s.pc + 2) := by
  cases i with
  | seImm x nn => exact eq_setPC_of_ite (exec_seImm x nn s) ht
  | sneImm x nn => exact (eq_setPC_of_ite (exec_sneImm x nn s) ht).symm
  | seReg x y => exact eq_setPC_of_ite (exec_seReg x y s) ht
  | sneReg x y => exact (eq_setPC_of_ite (exec_sneReg x y s) ht).symm
  | skp x => exact eq_setPC_of_ite (exec_skp_of_trapOf_none h) ht
  | sknp x => exact (eq_setPC_of_ite (exec_sknp_of_trapOf_none h) ht).symm
  | _ => cases hi

/-! ## The frame -/

theorem setPC_unchangedBut_pcOnly (s : State) (w : Word) :
    unchangedBut (fun p => p = .pc ∨ False) s (s.setPC w) :=
  unchangedBut_mono (setPC_unchangedBut s w) fun _ => .inl

/-- An instruction that completes writes only the places of its row of the write table (10_state R23). -/
theorem exec_unchangedBut_mayWrite {i : Instr} {s t : State} (h : trapOf i s = none) (ht : exec i s = .next t) :
    unchangedBut (mayWrite i s) s t := by
  cases i with
  | cls => cases ht; exact advance_setFB_unchangedBut s _
  | ret =>
    obtain ⟨d, hd⟩ := exec_ret_of_trapOf_none h
    cases hd.symm.trans ht
    exact pop_unchangedBut s _ _
  | call nnn =>
    obtain ⟨d, hdsp, hd⟩ := exec_call_of_trapOf_none h
    cases hd.symm.trans ht
    refine unchangedBut_mono (push_unchangedBut s d _ _ _) fun p hp => ?_
    exact hp.imp_right (Or.imp_right fun hslot => ⟨d, hdsp, hslot⟩)
  | jp _ | jpV0 _ => cases ht; exact setPC_unchangedBut_pcOnly s _
  | seImm _ _ | sneImm _ _ | seReg _ _ | sneReg _ _ | skp _ | sknp _ =>
    rcases exec_skip_cases rfl h ht with rfl | rfl <;> exact setPC_unchangedBut_pcOnly s _
  | ldImm x _ | addImm x _ | ldReg x _ | orReg x _ | andReg x _ | xorReg x _ | ldVxDT x =>
    cases ht; exact advance_setReg_unchangedBut s x _
  | addReg x _ | subReg x _ | shr x _ | subnReg x _ | shl x _ =>
    cases ht; exact advance_setFlagged_unchangedBut s x _ _
  | rnd x nn => cases ht; exact advance_countDraw_setReg_unchangedBut s x _
  | ldI _ | addI _ | ldF _ => cases ht; exact advance_setI_unchangedBut s _
  | ldVxK x => cases ht; exact advance_setAwait_unchangedBut s _
  | ldDTVx x => cases ht; exact advance_setDT_unchangedBut s _
  | ldSTVx x => cases ht; exact advance_setST_unchangedBut s _
  | drw x y n => cases (exec_drw_ok h).symm.trans ht; exact advance_setFB_setReg_unchangedBut s _ VF _
  | ldB x => cases (exec_ldB_ok h).symm.trans ht; exact advance_putBytes_unchangedBut s (bcdDigits (s.reg x))
  | ldMemStore x =>
    cases (exec_ldMemStore_ok h).symm.trans ht
    have hframe := advance_putBytes_unchangedBut s (s.regBlock x)
    simp only [s.regBlock_length, Nat.lt_succ_iff] at hframe
    exact hframe
  | ldMemLoad x =>
    cases (exec_ldMemLoad_ok h).symm.trans ht
    exact advance_setV_unchangedBut s x (overlayRegs_unchanged s.v _ x)

/-! ## Everything an instruction can do -/

/-- An instruction takes the fault that `trapOf` names, or names none and writes only its places. -/
theorem exec_cases {i : Instr} {s t : State} (ht : exec i s = .next t) :
    (∃ tr, trapOf i s = some tr ∧ t = takeFault s (some (encode i)) tr) ∨
    (trapOf i s = none ∧ unchangedBut (mayWrite i s) s t) := by
  cases htrap : trapOf i s with
  | none => exact .inr ⟨rfl, exec_unchangedBut_mayWrite htrap ht⟩
  | some tr =>
    cases (exec_of_trapOf_some htrap).symm.trans ht
    exact .inl ⟨tr, rfl, rfl⟩

/-- The places that no row of the write table has (10_state R23). -/
def tickPlaces : List Place := [.run, .kprev, .fault, .keypad, .inputs]

theorem not_mayWrite_of_mem_tickPlaces {p : Place} (hp : p ∈ tickPlaces) (i : Instr) (s : State) :
    ¬ mayWrite i s p := by
  simp only [tickPlaces, List.mem_cons, List.not_mem_nil, or_false] at hp
  rcases hp with rfl | rfl | rfl | rfl | rfl <;> cases i <;> simp [mayWrite]

section
variable {i : Instr} {s t : State}

/-- A place that a completed or faulted instruction leaves different is one it may write, or the run state or the record. -/
theorem mayWrite_of_changed {p : Place} (ht : exec i s = .next t) (hp : ¬ p.same s t) (hrun : p ≠ .run)
    (hfault : p ≠ .fault) : mayWrite i s p := by
  rcases exec_cases ht with ⟨tr, -, rfl⟩ | ⟨-, hframe⟩
  · refine absurd ?_ hp
    cases p with
    | run => exact absurd rfl hrun
    | fault => exact absurd rfl hfault
    | _ => rfl
  · exact Classical.not_not.mp fun hw => hp (hframe p hw)

theorem exec_keeps_tickPlace {p : Place} (ht : exec i s = .next t) (hp : p ∈ tickPlaces) (hrun : p ≠ .run)
    (hfault : p ≠ .fault) : p.same s t :=
  Classical.not_not.mp fun h => not_mayWrite_of_mem_tickPlaces hp i s (mayWrite_of_changed ht h hrun hfault)

/-- An instruction leaves the run state and the record alone, or faults and writes both. -/
theorem exec_run_cases (ht : exec i s = .next t) :
    (t.run = s.run ∧ t.fault = s.fault) ∨ (t.run = .faulted ∧ t.fault.isSome = true) := by
  rcases exec_cases ht with ⟨tr, -, rfl⟩ | ⟨-, hframe⟩
  · exact .inr ⟨rfl, rfl⟩
  · exact .inl ⟨hframe .run (not_mayWrite_of_mem_tickPlaces (by decide) i s),
      hframe .fault (not_mayWrite_of_mem_tickPlaces (by decide) i s)⟩

end

/-! ## The obligations -/

/-- Settles O16: the frame of each instruction, from the form of the state it answers (10_state R23). -/
theorem instructionWritesOnlyItsPlaces : Obligations.InstructionWritesOnlyItsPlaces :=
  fun _ _ _ => exec_unchangedBut_mayWrite

/-- Settles O14: a named fault is taken from the state before the step; where none is named the frame keeps `run` and the
record (60_exceptions R360, R369; 40_cycle R127). -/
theorem instructionFaultsExactlyWhenSpecified : Obligations.InstructionFaultsExactlyWhenSpecified := by
  refine fun i s => ⟨fun hnone => ?_, fun tr htrap => exec_of_trapOf_some htrap⟩
  obtain ⟨t, ht⟩ := exec_next i s
  have hframe := exec_unchangedBut_mayWrite hnone ht
  exact ⟨t, ht, hframe .run (not_mayWrite_of_mem_tickPlaces (by decide) i s),
    hframe .fault (not_mayWrite_of_mem_tickPlaces (by decide) i s)⟩

end Sys2Proof.Machine
end

section
/-! The tick: what it answers under each control signal, the four ways it can end, and what the steps of its batch keep
(40_cycle R130 to R139). -/

namespace Sys2Proof.Machine

/-! ## The instruction step and the batch -/

section
variable {s t : State}

/-- A step leaves the run state and the record alone, or faults and writes both (40_cycle R127). -/
theorem instrStep_run_cases (h : instrStep s = .next t) :
    (t.run = s.run ∧ t.fault = s.fault) ∨ (t.run = .faulted ∧ t.fault.isSome = true) := by
  obtain ⟨-, hstep⟩ | ⟨-, w, -, hstep⟩ | ⟨-, i, -, hstep⟩ := instrStep_cases s
  · cases hstep.symm.trans h; exact .inr ⟨rfl, rfl⟩
  · cases hstep.symm.trans h; exact .inr ⟨rfl, rfl⟩
  · exact exec_run_cases (hstep.symm.trans h)

theorem instrStep_keeps_kprev_keypad (h : instrStep s = .next t) : t.kprev = s.kprev ∧ t.keypad = s.keypad := by
  obtain ⟨-, hstep⟩ | ⟨-, w, -, hstep⟩ | ⟨-, i, -, hstep⟩ := instrStep_cases s
  · cases hstep.symm.trans h; exact ⟨rfl, rfl⟩
  · cases hstep.symm.trans h; exact ⟨rfl, rfl⟩
  · have hexec := hstep.symm.trans h
    exact ⟨exec_keeps_tickPlace (p := .kprev) hexec (by decide) nofun nofun,
      exec_keeps_tickPlace (p := .keypad) hexec (by decide) nofun nofun⟩

/-- What every step keeps, a batch of any number of steps keeps. -/
theorem runBatch_induction {P : State → Prop} (hstep : ∀ s t, P s → instrStep s = .next t → P t) {n : Nat}
    (hs : P s) (h : runBatch n s = .next t) : P t := by
  induction n generalizing s with
  | zero => cases h; exact hs
  | succ n ih =>
    obtain ⟨u, hu⟩ := instrStep_next s
    simp only [runBatch, hu] at h
    split at h
    · cases h; exact hstep s _ hs hu
    · exact ih (hstep s u hs hu) h

theorem runBatch_keeps_kprev_keypad {n : Nat} (h : runBatch n s = .next t) :
    t.kprev = s.kprev ∧ t.keypad = s.keypad := by
  refine runBatch_induction (P := fun u => u.kprev = s.kprev ∧ u.keypad = s.keypad) (fun u v hu huv => ?_) ⟨rfl, rfl⟩ h
  obtain ⟨hkprev, hkeypad⟩ := instrStep_keeps_kprev_keypad huv
  exact ⟨hkprev.trans hu.1, hkeypad.trans hu.2⟩

/-- A batch that starts Running ends Running or Faulted. -/
theorem runBatch_run {n : Nat} (hrun : s.run = .running) (h : runBatch n s = .next t) :
    t.run = .running ∨ t.run = .faulted := by
  refine runBatch_induction (P := fun u => u.run = .running ∨ u.run = .faulted) (fun u v hu huv => ?_) (.inl hrun) h
  rcases instrStep_run_cases huv with ⟨hsame, -⟩ | ⟨hfaulted, -⟩
  · rwa [hsame]
  · exact .inr hfaulted

end

/-! ## The completion of a wait -/

theorem storeKey_unchangedBut (s : State) (x : RegIdx) (k : Key) :
    unchangedBut (fun p => p = .reg x ∨ p = .awaitKey) s (s.storeKey x k) := by
  intro p hp
  cases p with
  | reg r =>
    have hr : r ≠ x := fun h => hp (.inl (congrArg Place.reg h))
    exact (State.storeKey_reg s x k r).trans (if_neg hr)
  | awaitKey => exact absurd (.inr rfl) hp
  | _ => rfl

theorem countDraw_storeKey_unchangedBut (s : State) (x : RegIdx) (k : Key) :
    unchangedBut (fun p => p = .reg x ∨ p = .awaitKey ∨ p = .draws) s (s.countDraw.storeKey x k) := by
  intro p hp
  cases p with
  | draws => exact absurd (.inr (.inr rfl)) hp
  | _ => exact storeKey_unchangedBut s.countDraw x k _ fun h => hp (h.imp_right .inl)

/-- A wait completion writes V[x], the wait and the number of draws at most (45_timers_keys R330). -/
theorem completeWait_unchangedBut (x : RegIdx) (s : State) :
    unchangedBut (fun p => p = .reg x ∨ p = .awaitKey ∨ p = .draws) s (completeWait x s) := by
  rcases completeWait_cases x s with ⟨-, h⟩ | ⟨k, -, h | h⟩
  · rw [h]; exact fun p _ => by cases p <;> rfl
  · rw [h]; exact unchangedBut_mono (storeKey_unchangedBut s x k) fun p hp => hp.imp_right .inl
  · rw [h]; exact countDraw_storeKey_unchangedBut s x k

theorem completeWait_keeps (x : RegIdx) (s : State) :
    (completeWait x s).run = s.run ∧ (completeWait x s).fault = s.fault ∧ (completeWait x s).dt = s.dt ∧
      (completeWait x s).st = s.st ∧ (completeWait x s).keypad = s.keypad ∧ (completeWait x s).inputs = s.inputs := by
  have hframe := completeWait_unchangedBut x s
  generalize completeWait x s = t at hframe
  exact ⟨hframe .run (by simp), hframe .fault (by simp), hframe .dt (by simp), hframe .st (by simp),
    hframe .keypad (by simp), hframe .inputs (by simp)⟩

theorem completeWait_of_no_edge {x : RegIdx} {s : State}
    (h : ∀ k : Key, ¬ (pressed s.keypad k = true ∧ pressed s.kprev k = false)) : completeWait x s = s := by
  rcases completeWait_cases x s with ⟨-, hsame⟩ | ⟨k, hk, -⟩
  · exact hsame
  · exact absurd ((mem_pressEdges _ _ k).mp hk) (h k)

theorem completeWait_of_edge {x : RegIdx} {s : State} {k : Key} (h1 : pressed s.keypad k = true)
    (h2 : pressed s.kprev k = false) : (completeWait x s).awaitKey = none ∧
      ∃ c : Key, pressed s.keypad c = true ∧ pressed s.kprev c = false ∧ ((completeWait x s).reg x).toNat = c.val := by
  have hk := (mem_pressEdges s.keypad s.kprev k).mpr ⟨h1, h2⟩
  rcases completeWait_cases x s with ⟨hnil, -⟩ | ⟨c, hc, hstore⟩
  · rw [hnil] at hk; cases hk
  · obtain ⟨hnow, hbefore⟩ := (mem_pressEdges _ _ c).mp hc
    have hval : (BitVec.ofNat 8 c.val).toNat = c.val := ofNat_byte_toNat (by omega)
    rcases hstore with hstore | hstore <;> rw [hstore, State.storeKey_reg, if_pos rfl] <;>
      exact ⟨rfl, c, hnow, hbefore, hval⟩

/-! ## The frames of a tick's parts -/

theorem Place.same_trans {p : Place} {s t u : State} (h : p.same s t) (h' : p.same t u) : p.same s u := by
  cases p <;> exact Eq.trans h' h

theorem unchangedBut_trans {W : Place → Prop} {s t u : State} (h : unchangedBut W s t) (h' : unchangedBut W t u) :
    unchangedBut W s u :=
  fun p hp => Place.same_trans (h p hp) (h' p hp)

theorem latch_unchangedBut (s : State) : unchangedBut (fun p => p = .keypad ∨ p = .inputs) s (latch s) := by
  intro p hp
  cases p with
  | keypad => exact absurd (.inl rfl) hp
  | inputs => exact absurd (.inr rfl) hp
  | _ => rfl

theorem setRun_unchangedBut (s : State) (r : RunState) : unchangedBut (fun p => p = .run) s (s.setRun r) := by
  intro p hp
  cases p with
  | run => exact absurd rfl hp
  | _ => rfl

theorem latch_setRun_unchangedBut (s : State) (r : RunState) :
    unchangedBut (fun p => p = .run ∨ p = .keypad ∨ p = .inputs) s ((latch s).setRun r) :=
  unchangedBut_trans (unchangedBut_mono (latch_unchangedBut s) fun _ => .inr)
    (unchangedBut_mono (setRun_unchangedBut _ r) fun _ => .inl)

theorem endTick_unchangedBut (s : State) :
    unchangedBut (fun p => p = .dt ∨ p = .st ∨ p = .kprev) s (endTick s) := by
  intro p hp
  cases p with
  | dt => exact absurd (.inl rfl) hp
  | st => exact absurd (.inr (.inl rfl)) hp
  | kprev => exact absurd (.inr (.inr rfl)) hp
  | _ => rfl

/-! ## What a tick answers -/

/-- The tick keeps or makes the machine Paused: there is no quit, and the pause toggle is pressed exactly when it is Running
(40_cycle R133, R134). -/
def State.pausesNext (s : State) : Prop :=
  (nextInput s).quit = false ∧
    ((s.run = .paused ∧ (nextInput s).pauseToggle = false) ∨ (s.run = .running ∧ (nextInput s).pauseToggle = true))

/-- The tick does a Running tick's work: there is no quit, and the pause toggle is pressed exactly when the machine is Paused
(40_cycle R133, R135, R136). -/
def State.worksNext (s : State) : Prop :=
  (nextInput s).quit = false ∧
    ((s.run = .running ∧ (nextInput s).pauseToggle = false) ∨ (s.run = .paused ∧ (nextInput s).pauseToggle = true))

/-- The state a working tick starts its work from. -/
def State.working (s : State) : State := (latch s).setRun .running

theorem State.setRun_self {s : State} {r : RunState} (h : s.run = r) : s.setRun r = s := by
  subst h; rfl

section
variable {s t u : State} {n : Nat}

theorem working_of_running (h : s.run = .running) : s.working = latch s := State.setRun_self h

theorem tick_live (n : Nat) (h : s.run = .running ∨ s.run = .paused) :
    tick n s = liveTick n (nextInput s) (latch s) := by
  rcases h with h | h <;> simp only [tick, h]

theorem tick_of_quit (n : Nat) (h : s.run = .running ∨ s.run = .paused) (hq : (nextInput s).quit = true) :
    tick n s = .next ((latch s).setRun .stopped) := by
  rw [tick_live n h]
  exact if_pos hq

theorem tick_of_pausesNext (n : Nat) (h : s.pausesNext) : tick n s = .next ((latch s).setRun .paused) := by
  obtain ⟨hq, ⟨hrun, hp⟩ | ⟨hrun, hp⟩⟩ := h
  · rw [tick_live n (.inr hrun), State.setRun_self (s := latch s) hrun]
    simp [liveTick, hq, hp, hrun]
  · rw [tick_live n (.inl hrun)]
    simp [liveTick, hq, hp, togglePause, hrun, State.setRun]

theorem tick_of_worksNext (n : Nat) (h : s.worksNext) : tick n s = runningTick n s.working := by
  obtain ⟨hq, ⟨hrun, hp⟩ | ⟨hrun, hp⟩⟩ := h
  · rw [tick_live n (.inl hrun), working_of_running hrun]
    simp [liveTick, hq, hp, hrun]
  · rw [tick_live n (.inr hrun)]
    simp [liveTick, hq, hp, togglePause, hrun, State.working, State.setRun]

theorem State.stepsNext.worksNext (h : s.stepsNext) : s.worksNext := by
  obtain ⟨hrun, -, hq, hp⟩ := h
  exact ⟨hq, .inl ⟨hrun, hp⟩⟩

/-- The four ways a tick can end: in a terminal state it does nothing, a quit stops it, it is Paused, or it works
(40_cycle R130 to R136). -/
theorem tick_cases (h : tick n s = .next t) :
    ((s.run = .stopped ∨ s.run = .faulted) ∧ t = s) ∨
    ((s.run = .running ∨ s.run = .paused) ∧ (nextInput s).quit = true ∧ t = (latch s).setRun .stopped) ∨
    (s.pausesNext ∧ t = (latch s).setRun .paused) ∨
    (s.worksNext ∧ runningTick n s.working = .next t) := by
  have hterminal (hrun : s.run = .stopped ∨ s.run = .faulted) : t = s := by
    cases (tick_of_terminal n hrun).symm.trans h; rfl
  have hlive (hrun : s.run = .running ∨ s.run = .paused) :
      ((nextInput s).quit = true ∧ t = (latch s).setRun .stopped) ∨ (s.pausesNext ∧ t = (latch s).setRun .paused) ∨
        (s.worksNext ∧ runningTick n s.working = .next t) := by
    cases hq : (nextInput s).quit with
    | true => cases (tick_of_quit n hrun hq).symm.trans h; exact .inl ⟨rfl, rfl⟩
    | false =>
      have hmode : s.pausesNext ∨ s.worksNext := by
        unfold State.pausesNext State.worksNext
        cases (nextInput s).pauseToggle <;> tauto
      rcases hmode with hpauses | hworks
      · cases (tick_of_pausesNext n hpauses).symm.trans h; exact .inr (.inl ⟨hpauses, rfl⟩)
      · exact .inr (.inr ⟨hworks, (tick_of_worksNext n hworks).symm.trans h⟩)
  cases hrun : s.run with
  | stopped => exact .inl ⟨.inl rfl, hterminal (.inl hrun)⟩
  | faulted => exact .inl ⟨.inr rfl, hterminal (.inr hrun)⟩
  | running => exact .inr ((hlive (.inl hrun)).imp_left fun hstop => ⟨.inl rfl, hstop⟩)
  | paused => exact .inr ((hlive (.inr hrun)).imp_left fun hstop => ⟨.inr rfl, hstop⟩)

/-! ## What the work of a tick answers -/

theorem runningTick_of_wait {x : RegIdx} (n : Nat) (h : s.awaitKey = some x) :
    runningTick n s = .next (endTick (completeWait x s)) := by
  simp only [runningTick, h]

theorem runningTick_of_batch (hwait : s.awaitKey = none) (h : runBatch n s = .next u) :
    runningTick n s = .next (if u.run = .faulted then u else endTick u) := by
  simp only [runningTick, hwait, h]
  split <;> rfl

/-- The work of a tick ends after a wait completion, or after a batch of steps that may have faulted (40_cycle R135, R136). -/
theorem runningTick_cases (h : runningTick n s = .next t) :
    (∃ x, s.awaitKey = some x ∧ t = endTick (completeWait x s)) ∨
    ∃ u, s.awaitKey = none ∧ runBatch n s = .next u ∧ t = if u.run = .faulted then u else endTick u := by
  cases hwait : s.awaitKey with
  | some x => cases (runningTick_of_wait n hwait).symm.trans h; exact .inl ⟨x, rfl, rfl⟩
  | none =>
    obtain ⟨u, hu⟩ := runBatch_next n s
    cases (runningTick_of_batch hwait hu).symm.trans h
    exact .inr ⟨u, rfl, hu, rfl⟩

/-- The work of a Running tick ends Running with Kprev the snapshot, or Faulted with Kprev as it was (40_cycle R138, R139). -/
theorem runningTick_run_kprev (hrun : s.run = .running) (h : runningTick n s = .next t) :
    (t.run = .running ∧ t.kprev = s.keypad) ∨ (t.run = .faulted ∧ t.kprev = s.kprev) := by
  rcases runningTick_cases h with ⟨x, -, rfl⟩ | ⟨u, -, hbatch, rfl⟩
  · obtain ⟨hsame, -, -, -, hkeypad, -⟩ := completeWait_keeps x s
    exact .inl ⟨(endTick_run _).trans (hsame.trans hrun), (endTick_kprev _).trans hkeypad⟩
  · obtain ⟨hkprev, hkeypad⟩ := runBatch_keeps_kprev_keypad hbatch
    rcases runBatch_run hrun hbatch with hu | hu
    · rw [if_neg (by rw [hu]; decide)]; exact .inl ⟨hu, hkeypad⟩
    · rw [if_pos hu]; exact .inr ⟨hu, hkprev⟩

/-! ## The step of one instruction -/

theorem step_of_stepsNext (h : s.stepsNext) (hu : instrStep (latch s) = .next u) :
    step s = .next (if u.run = .faulted then u else endTick u) := by
  obtain ⟨hrun, hwait, hq, hp⟩ := h
  rw [step_running s hrun hq hp]
  exact runningTick_of_batch hwait ((runBatch_one _).trans hu)

theorem step_of_stepsNext_fault {op : Option Word} {tr : Trap} (h : s.stepsNext)
    (hu : instrStep (latch s) = .next (takeFault (latch s) op tr)) : step s = .next (takeFault (latch s) op tr) :=
  (step_of_stepsNext h hu).trans (congrArg _ (if_pos rfl))

theorem instrStep_of_fetch_error {tr : Trap} (h : fetch s = .error tr) :
    instrStep s = .next (takeFault s none tr) := by
  simp only [instrStep, h]

theorem instrStep_of_unimplemented {w : Word} (h : s.pc.toNat ≤ 0xFFE)
    (hd : decode (wordAt s.mem s.pc.toNat) = .unimplemented w) :
    instrStep s = .next (takeFault s (some w) ⟨.unimplementedOpcode, none, none⟩) := by
  simp only [instrStep, fetch_ok s h, hd]

theorem instrStep_of_instr {i : Instr} (h : s.pc.toNat ≤ 0xFFE)
    (hd : decode (wordAt s.mem s.pc.toNat) = .instr i) : instrStep s = exec i s := by
  simp only [instrStep, fetch_ok s h, hd]

theorem step_of_fetches {i : Instr} (h : s.fetches i) (hu : exec i (latch s) = .next u) :
    step s = .next (if u.run = .faulted then u else endTick u) := by
  obtain ⟨hsteps, hpc, hd⟩ := h
  exact step_of_stepsNext hsteps ((instrStep_of_instr (s := latch s) hpc hd).trans hu)

end

/-! ## The obligations on one step -/

/-- Settles O15: the batch of one step is the decoded instruction on the latched inputs (40_cycle R121, R130). -/
theorem stepRunsTheDecodedInstruction : Obligations.StepRunsTheDecodedInstruction := by
  intro s i h
  obtain ⟨t, ht⟩ := exec_next i (latch s)
  exact ⟨t, ht, step_of_fetches h ht⟩

/-- Settles O4: the reset state fetches at 0x200, and with no input pending the latch leaves it as it is (70_reset R401;
log 3, log 4). -/
theorem firstStepFetchesAtEntryPoint : Obligations.FirstStepFetchesAtEntryPoint := by
  have hpc : (0x200 : Word).toNat ≤ 0xFFE := by decide
  refine ⟨rfl, rfl, fun m i hd => ?_⟩
  obtain ⟨t, ht⟩ := exec_next i (State.reset.setMem m)
  exact ⟨t, ht, step_of_fetches (i := i) ⟨⟨rfl, rfl, rfl, rfl⟩, hpc, hd⟩ ht⟩

/-- Settles O12: the fetch reads PC first and PC + 1 next, so it raises at the higher of PC and 0x1000 (40_cycle R122). -/
theorem fetchBeyondMemoryFaults : Obligations.FetchBeyondMemoryFaults := by
  intro s hsteps hpc
  have haddr : max s.pc.toNat 0x1000 = if s.pc.toNat = 0xFFF then 0x1000 else s.pc.toNat := by
    split <;> omega
  have hfetch := fetch_error (latch s) hpc
  rw [latch_pc, haddr] at hfetch
  exact step_of_stepsNext_fault hsteps (instrStep_of_fetch_error hfetch)

/-- Settles O13: a word that no row selects decodes as unimplemented, which the step takes as a fault (30_encoding R101). -/
theorem unimplementedWordFaults : Obligations.UnimplementedWordFaults := by
  intro s hsteps hpc hword
  have hd := (wordIsInstructionOrUnimplemented.2 _).2 hword
  exact step_of_stepsNext_fault hsteps (instrStep_of_unimplemented (s := latch s) hpc hd)

/-- Settles O59: the tick that sets a timer does not fault, so its one decay is applied to the new value (45_timers_keys
R325, R326, R340). -/
theorem setTimersAndDecayInSameTick : Obligations.SetTimersAndDecayInSameTick := by
  refine ⟨encodedBy_of_familyF (nn := 0x15) rfl rfl fun _ hnn => by simp [decodeFamilyF, hnn],
    encodedBy_of_familyF (nn := 0x18) rfl rfl fun _ hnn => by simp [decodeFamilyF, hnn],
    fun x s => ⟨⟨_, exec_ldDTVx x s, rfl, rfl, advance_setDT_unchangedBut s _⟩,
      ⟨_, exec_ldSTVx x s, rfl, rfl, advance_setST_unchangedBut s _⟩⟩, fun x s => ⟨fun h => ?_, fun h => ?_⟩⟩
  all_goals have hrun : (latch s).run ≠ .faulted := by rw [latch_run, h.1.1]; decide
  · refine ⟨_, (step_of_fetches h (exec_ldDTVx x _)).trans (congrArg _ (if_neg hrun)), ?_⟩
    exact countDown_toNat (s.reg x)
  · refine ⟨_, (step_of_fetches h (exec_ldSTVx x _)).trans (congrArg _ (if_neg hrun)), countDown_toNat (s.reg x), ?_⟩
    have hst : (countDown (s.reg x)).toNat = (s.reg x).toNat - 1 := countDown_toNat _
    simp only [State.outputs, State.soundOn, decide_eq_true_iff]
    exact hst ▸ Nat.sub_pos_iff_lt

/-! ## The obligations on a tick of any number of steps -/

/-- Settles O18: every tick ends in a next state, by induction over its batch (log 9). -/
theorem everyTickGivesNextState : Obligations.EveryTickGivesNextState := tick_next

/-- Settles O20: Faulted is one of the two terminal run states (40_cycle R142). -/
theorem faultedIsTerminal : Obligations.FaultedIsTerminal :=
  fun n _ hrun => tick_of_terminal n (.inr hrun)

/-- Settles O21: the quit input is read before the pause toggle and the wait (40_cycle R132). -/
theorem quitStopsBeforeAnythingElse : Obligations.QuitStopsBeforeAnythingElse :=
  fun n _ => tick_of_quit n

/-- Settles O22: such a tick ends once its inputs are latched and `run` is set (40_cycle R133, R134). -/
theorem pausedTickChangesNothing : Obligations.PausedTickChangesNothing :=
  fun n s hq hmode => ⟨_, tick_of_pausesNext n ⟨hq, hmode⟩, rfl, rfl, rfl, latch_setRun_unchangedBut s .paused⟩

/-- Settles O23: both ticks work, from the same state once the inputs are latched and `run` is set (40_cycle R133). -/
theorem resumingTickRuns : Obligations.ResumingTickRuns := by
  intro n s hrun hq hp
  rw [tick_of_worksNext n ⟨hq, .inr ⟨hrun, hp⟩⟩, tick_of_worksNext n ⟨rfl, .inl ⟨rfl, rfl⟩⟩]
  rfl

/-- Settles O24: each of the four ways a tick ends makes one of the transitions (40_cycle R140). -/
theorem runStateTransitions : Obligations.RunStateTransitions := by
  intro n s t h
  rcases tick_cases h with ⟨hrun | hrun, rfl⟩ | ⟨hrun | hrun, hq, rfl⟩ | ⟨⟨hq, hmode⟩, rfl⟩ | ⟨⟨hq, hmode⟩, hwork⟩
  · rw [hrun]; trivial
  · rw [hrun]; trivial
  · rw [hrun]; exact hq
  · rw [hrun]; exact hq
  · rcases hmode with ⟨hrun, hp⟩ | ⟨hrun, hp⟩ <;> rw [hrun] <;> exact ⟨hq, hp⟩
  · rcases runningTick_run_kprev rfl hwork with ⟨ht, -⟩ | ⟨ht, -⟩ <;>
      rcases hmode with ⟨hrun, hp⟩ | ⟨hrun, hp⟩ <;> rw [hrun, ht] <;> exact ⟨hq, hp⟩

/-- Settles O25: the tick completes the wait on the latched snapshot and then ends as any Running tick (45_timers_keys R330
to R332). -/
theorem waitingTickStoresAnEdgeKey : Obligations.WaitingTickStoresAnEdgeKey := by
  intro n s x hrun hwait hq hp
  have htick : tick n s = .next (endTick (completeWait x (latch s))) := by
    rw [tick_of_worksNext n ⟨hq, .inl ⟨hrun, hp⟩⟩, working_of_running hrun]
    exact runningTick_of_wait n hwait
  have hno := completeWait_of_no_edge (s := latch s) (x := x)
  have hedge (k : Key) := completeWait_of_edge (s := latch s) (x := x) (k := k)
  have hframe := completeWait_unchangedBut x (latch s)
  obtain ⟨-, -, hdt, hst, hkeypad, hinputs⟩ := completeWait_keeps x (latch s)
  generalize completeWait x (latch s) = w at *
  refine ⟨_, htick, ?_, ?_, hkeypad, hkeypad, hinputs, fun h => ?_, hedge,
    unchangedBut_trans (unchangedBut_mono (latch_unchangedBut s) ?_)
      (unchangedBut_trans (unchangedBut_mono hframe ?_) (unchangedBut_mono (endTick_unchangedBut w) ?_))⟩
  · rw [endTick_dt, countDown_toNat, hdt, latch_dt]
  · rw [endTick_st, countDown_toNat, hst, latch_st]
  · rw [hno h]
    exact ⟨hwait, rfl⟩
  · rintro p (hp | hp) <;> simp [hp]
  · rintro p (hp | hp | hp) <;> simp [hp]
  · rintro p (hp | hp | hp) <;> simp [hp]

/-- Settles O26: the decay is the end of a tick that works and does not fault; every other tick leaves both timers
(45_timers_keys R340; 40_cycle R134, R137, R139). -/
theorem timersDecayOncePerRunningTick : Obligations.TimersDecayOncePerRunningTick := by
  refine ⟨fun n s u hsteps hbatch hu => ?_, fun n s u hsteps hbatch hu => ?_, fun n s t hrun hwait hq hp h => ?_,
    fun n s t h hend => ?_⟩
  · have htick := tick_of_worksNext n hsteps.worksNext
    rw [working_of_running hsteps.1, runningTick_of_batch (s := latch s) hsteps.2.1 hbatch, if_neg hu] at htick
    exact ⟨_, htick, countDown_toNat _, countDown_toNat _⟩
  · rw [tick_of_worksNext n hsteps.worksNext, working_of_running hsteps.1, runningTick_of_batch (s := latch s) hsteps.2.1 hbatch,
      if_pos hu]
  · obtain ⟨x, hx⟩ := Option.isSome_iff_exists.mp hwait
    obtain ⟨t', htick, hdt, hst, -⟩ := waitingTickStoresAnEdgeKey n s x hrun hx hq hp
    cases htick.symm.trans h
    exact ⟨hdt, hst⟩
  · rcases tick_cases h with ⟨-, rfl⟩ | ⟨-, -, rfl⟩ | ⟨-, rfl⟩ | ⟨⟨-, hmode⟩, hwork⟩
    · exact ⟨rfl, rfl⟩
    · exact ⟨rfl, rfl⟩
    · exact ⟨rfl, rfl⟩
    · exfalso
      rcases runningTick_run_kprev rfl hwork with ⟨ht, -⟩ | ⟨ht, -⟩ <;> rcases hmode with ⟨hs, -⟩ | ⟨hs, -⟩ <;>
        simp [ht, hs] at hend

/-- Settles O27: only the end of a tick that works and does not fault writes Kprev, and it leaves the machine Running
(40_cycle R134, R138, R139). -/
theorem kprevIsLatestRunningSnapshot : Obligations.KprevIsLatestRunningSnapshot := by
  intro n s t h
  rcases tick_cases h with ⟨hrun, rfl⟩ | ⟨-, -, rfl⟩ | ⟨-, rfl⟩ | ⟨-, hwork⟩
  · refine ⟨fun ht => ?_, fun _ => rfl⟩
    rcases hrun with hrun | hrun <;> cases hrun.symm.trans ht
  · exact ⟨nofun, fun _ => rfl⟩
  · exact ⟨nofun, fun _ => rfl⟩
  · rcases runningTick_run_kprev rfl hwork with ⟨ht, hkprev⟩ | ⟨ht, hkprev⟩
    · exact ⟨fun _ => hkprev, fun hne => absurd ht hne⟩
    · exact ⟨fun hr => (by cases ht.symm.trans hr), fun _ => hkprev⟩

end Sys2Proof.Machine
end

section
/-! The invariants: what one step does to memory, to PC and the return addresses, and to the run state and the record
(20_memory R61, R64; 10_state R26, R41). -/

namespace Sys2Proof.Machine

/-! ## What a step leaves to its instruction -/

/-- The units that only an instruction writes hold the same in both states (10_state R23). -/
structure SameUnits (s t : State) : Prop where
  mem : t.mem = s.mem
  i : t.i = s.i
  pc : t.pc = s.pc
  stack : t.stack = s.stack
  sp : t.sp = s.sp
  fb : t.fb = s.fb

theorem SameUnits.refl (s : State) : SameUnits s s := ⟨rfl, rfl, rfl, rfl, rfl, rfl⟩

theorem SameUnits.trans {s t u : State} (h : SameUnits s t) (h' : SameUnits t u) : SameUnits s u :=
  ⟨h'.mem.trans h.mem, h'.i.trans h.i, h'.pc.trans h.pc, h'.stack.trans h.stack, h'.sp.trans h.sp, h'.fb.trans h.fb⟩

theorem sameUnits_latch_setRun (s : State) (r : RunState) : SameUnits s ((latch s).setRun r) :=
  ⟨rfl, rfl, rfl, rfl, rfl, rfl⟩

theorem sameUnits_takeFault (s : State) (op : Option Word) (tr : Trap) : SameUnits s (takeFault s op tr) :=
  ⟨rfl, rfl, rfl, rfl, rfl, rfl⟩

theorem sameUnits_endTick (s : State) : SameUnits s (endTick s) := ⟨rfl, rfl, rfl, rfl, rfl, rfl⟩

theorem sameUnits_countDraw (s : State) : SameUnits s s.countDraw := ⟨rfl, rfl, rfl, rfl, rfl, rfl⟩

theorem sameUnits_storeKey (s : State) (x : RegIdx) (k : Key) : SameUnits s (s.storeKey x k) :=
  ⟨rfl, rfl, rfl, rfl, rfl, rfl⟩

theorem sameUnits_completeWait (x : RegIdx) (s : State) : SameUnits s (completeWait x s) := by
  rcases completeWait_cases x s with ⟨-, h⟩ | ⟨k, -, h | h⟩ <;> rw [h]
  · exact .refl s
  · exact sameUnits_storeKey s x k
  · exact (sameUnits_countDraw s).trans (sameUnits_storeKey _ x k)

/-- A step leaves those units as they are, or is at a word that decodes to an instruction and leaves them as that instruction
does (40_cycle R121). -/
theorem step_units_cases {s t : State} (h : step s = .next t) : SameUnits s t ∨
    ∃ i u, s.pc.toNat ≤ 0xFFE ∧ decode (wordAt s.mem s.pc.toNat) = .instr i ∧ exec i s.working = .next u ∧
      SameUnits u t := by
  have hworking : SameUnits s s.working := sameUnits_latch_setRun s _
  rcases tick_cases h with ⟨-, rfl⟩ | ⟨-, -, rfl⟩ | ⟨-, rfl⟩ | ⟨-, hwork⟩
  · exact .inl (.refl t)
  · exact .inl (sameUnits_latch_setRun s _)
  · exact .inl (sameUnits_latch_setRun s _)
  · rcases runningTick_cases hwork with ⟨x, -, rfl⟩ | ⟨u, -, hbatch, rfl⟩
    · exact .inl (hworking.trans ((sameUnits_completeWait x _).trans (sameUnits_endTick _)))
    · have hend : SameUnits u (if u.run = .faulted then u else endTick u) := by
        split
        · exact .refl u
        · exact sameUnits_endTick u
      rw [Config.stepsPerTick, runBatch_one] at hbatch
      obtain ⟨-, hstep⟩ | ⟨-, w, -, hstep⟩ | ⟨hpc, i, hd, hstep⟩ := instrStep_cases s.working
      · cases hstep.symm.trans hbatch
        exact .inl (hworking.trans ((sameUnits_takeFault _ _ _).trans hend))
      · cases hstep.symm.trans hbatch
        exact .inl (hworking.trans ((sameUnits_takeFault _ _ _).trans hend))
      · exact .inr ⟨i, u, hpc, hd, hstep.symm.trans hbatch, hend⟩

/-! ## Memory -/

/-- A block that is written leaves the font region as it was (20_memory R64). -/
theorem writeBlock_read_font {m m' : Memory} {a b : Nat} {bs : List Byte} (h : writeBlock m a bs = .ok m')
    (hb : b < 0x050) : m'.read b = m.read b := by
  induction bs generalizing m a with
  | nil => cases h; rfl
  | cons c bs ih =>
    simp only [writeBlock] at h
    split at h
    · cases h
    · next m1 h1 =>
      obtain ⟨ha, -, rfl⟩ := memWrite_cases h1
      rw [ih h, Memory.read_write_ne m c (by omega)]

theorem storeAtI_mem {s t : State} {bs : List Byte} (h : storeAtI s bs = .ok t) :
    writeBlock s.mem (s.effAddr 0) bs = .ok t.mem := by
  unfold storeAtI at h
  split at h
  · cases h
  · next m hm => cases h; exact hm

/-- An instruction that may fault leaves memory as it was, or as the state it completes with has it. -/
theorem complete_mem {i : Instr} {s t : State} {r : Except Trap State} (h : complete i s r = .next t) :
    t.mem = s.mem ∨ r = .ok t := by
  cases r with
  | ok u => cases h; exact .inr rfl
  | error tr => cases h; exact .inl rfl

/-- The two stores write memory by one checked block; every other instruction leaves it, entry by entry, as it was
(20_memory R71). -/
theorem exec_mem_cases {i : Instr} {s t : State} (h : exec i s = .next t) : t.mem = s.mem ∨
    ((∃ x, i = .ldB x ∨ i = .ldMemStore x) ∧ ∃ bs, writeBlock s.mem (s.effAddr 0) bs = .ok t.mem) := by
  rcases exec_cases h with ⟨tr, -, rfl⟩ | ⟨hno, -⟩
  · exact .inl rfl
  · cases i with
    | ldB x => exact (complete_mem h).imp_right fun hok => ⟨⟨x, .inl rfl⟩, _, storeAtI_mem hok⟩
    | ldMemStore x => exact (complete_mem h).imp_right fun hok => ⟨⟨x, .inr rfl⟩, _, storeAtI_mem hok⟩
    | ret => obtain ⟨d, hd⟩ := exec_ret_of_trapOf_none hno; cases hd.symm.trans h; exact .inl rfl
    | call _ => obtain ⟨d, -, hd⟩ := exec_call_of_trapOf_none hno; cases hd.symm.trans h; exact .inl rfl
    | seImm _ _ | sneImm _ _ | seReg _ _ | sneReg _ _ | skp _ | sknp _ =>
      rcases exec_skip_cases rfl hno h with rfl | rfl <;> exact .inl rfl
    | drw _ _ _ => cases (exec_drw_ok hno).symm.trans h; exact .inl rfl
    | ldMemLoad _ => cases (exec_ldMemLoad_ok hno).symm.trans h; exact .inl (State.setV_mem s.advance _)
    | _ => cases h; exact .inl rfl

/-- Everything a step can do to memory: nothing, or one checked block store by the instruction at PC. -/
theorem step_mem_cases {s t : State} (h : step s = .next t) : t.mem = s.mem ∨
    ((∃ i, decode (wordAt s.mem s.pc.toNat) = .instr i ∧ ∃ x, i = .ldB x ∨ i = .ldMemStore x) ∧
      ∃ a bs, writeBlock s.mem a bs = .ok t.mem) := by
  rcases step_units_cases h with hsame | ⟨i, u, -, hd, hexec, hsame⟩
  · exact .inl hsame.mem
  · rw [hsame.mem]
    exact (exec_mem_cases hexec).imp_right fun ⟨hi, bs, hbs⟩ => ⟨⟨i, hd, hi⟩, _, bs, hbs⟩

/-! ## PC and the return addresses -/

/-- Everything an instruction can do to PC (41_control R160 to R169). -/
theorem exec_pc_cases {i : Instr} {s t : State} (h : exec i s = .next t) :
    (t.pc = s.pc ∨ t.pc = s.pc + 2 ∨ t.pc = s.pc + 4) ∨ (∃ nnn, t.pc = zext16 nnn) ∨
      (∃ nnn b, t.pc = offsetTarget nnn b) ∨ ∃ j : Fin 12, t.pc = s.stack[j] := by
  rcases exec_cases h with ⟨tr, -, rfl⟩ | ⟨hno, -⟩
  · exact .inl (.inl rfl)
  · cases i with
    | ret => obtain ⟨d, hd⟩ := exec_ret_of_trapOf_none hno; cases hd.symm.trans h; exact .inr (.inr (.inr ⟨d, rfl⟩))
    | call nnn =>
      obtain ⟨d, -, hd⟩ := exec_call_of_trapOf_none hno
      cases hd.symm.trans h
      exact .inr (.inl ⟨nnn, rfl⟩)
    | jp nnn => cases h; exact .inr (.inl ⟨nnn, rfl⟩)
    | jpV0 nnn => cases h; exact .inr (.inr (.inl ⟨nnn, _, rfl⟩))
    | seImm _ _ | sneImm _ _ | seReg _ _ | sneReg _ _ | skp _ | sknp _ =>
      rcases exec_skip_cases rfl hno h with rfl | rfl
      · exact .inl (.inr (.inr rfl))
      · exact .inl (.inr (.inl rfl))
    | drw _ _ _ => cases (exec_drw_ok hno).symm.trans h; exact .inl (.inr (.inl rfl))
    | ldB _ => cases (exec_ldB_ok hno).symm.trans h; exact .inl (.inr (.inl rfl))
    | ldMemStore _ => cases (exec_ldMemStore_ok hno).symm.trans h; exact .inl (.inr (.inl rfl))
    | ldMemLoad _ => cases (exec_ldMemLoad_ok hno).symm.trans h; exact .inl (.inr (.inl rfl))
    | _ => cases h; exact .inl (.inr (.inl rfl))

theorem mayWrite_slot {i : Instr} {s : State} {j : Fin 12} (h : mayWrite i s (.slot j)) : ∃ nnn, i = .call nnn := by
  cases i <;> simp [mayWrite] at h ⊢

/-- A slot that an instruction changes holds the address after a CALL (41_control R164). -/
theorem exec_slot_cases {i : Instr} {s t : State} (h : exec i s = .next t) (j : Fin 12) :
    t.stack[j] = s.stack[j] ∨ t.stack[j] = s.pc + 2 := by
  by_cases hj : t.stack[j] = s.stack[j]
  · exact .inl hj
  · obtain ⟨nnn, rfl⟩ := mayWrite_slot (mayWrite_of_changed (p := .slot j) h hj nofun nofun)
    rcases exec_cases h with ⟨tr, -, rfl⟩ | ⟨hno, -⟩
    · exact .inl rfl
    · obtain ⟨d, -, hd⟩ := exec_call_of_trapOf_none hno
      cases hd.symm.trans h
      by_cases hdj : d = j
      · subst hdj; exact .inr (Vector.getElem_set_self _)
      · exact .inl (Vector.getElem_set_ne d.isLt j.isLt (Fin.val_ne_of_ne hdj))

theorem add_toNat_of_fetch {w : Word} (h : w.toNat ≤ 0xFFE) {k : Nat} (hk : k ≤ 4) :
    (w + BitVec.ofNat 16 k).toNat = w.toNat + k := by
  rw [BitVec.toNat_add, BitVec.toNat_ofNat]
  omega

/-- From a place that can be fetched, no instruction takes PC past 0x10FE or saves an address past 0x1000
(10_state R26). -/
theorem exec_pcBounded {i : Instr} {s t : State} (hpc : s.pc.toNat ≤ 0xFFE) (hs : s.pcBounded)
    (h : exec i s = .next t) : t.pcBounded := by
  have h2 : (s.pc + 2).toNat = s.pc.toNat + 2 := add_toNat_of_fetch hpc (by decide)
  have h4 : (s.pc + 4).toNat = s.pc.toNat + 4 := add_toNat_of_fetch hpc (by decide)
  refine ⟨?_, fun j => ?_⟩
  · rcases exec_pc_cases h with (hw | hw | hw) | ⟨nnn, hw⟩ | ⟨nnn, b, hw⟩ | ⟨j, hw⟩ <;> rw [hw]
    · omega
    · omega
    · omega
    · rw [zext16_toNat]; omega
    · rw [offsetTarget_toNat]; omega
    · have := hs.2 j; omega
  · rcases exec_slot_cases h j with hw | hw <;> rw [hw]
    · exact hs.2 j
    · omega

theorem SameUnits.pcBounded {s t : State} (h : SameUnits s t) (hs : s.pcBounded) : t.pcBounded := by
  rw [State.pcBounded, h.pc, h.stack]
  exact hs

/-! ## The run state and the record -/

section
variable {s t : State} {n : Nat}

theorem instrStep_faultRecorded (hs : s.faultRecorded) (h : instrStep s = .next t) : t.faultRecorded := by
  rcases instrStep_run_cases h with ⟨hrun, hfault⟩ | ⟨hrun, hfault⟩
  · rwa [State.faultRecorded, hrun, hfault]
  · exact iff_of_true hrun hfault

theorem runningTick_faultRecorded (hs : s.faultRecorded) (h : runningTick n s = .next t) : t.faultRecorded := by
  rcases runningTick_cases h with ⟨x, -, rfl⟩ | ⟨u, -, hbatch, rfl⟩
  · obtain ⟨hrun, hfault, -⟩ := completeWait_keeps x s
    rwa [State.faultRecorded, endTick_run, endTick_fault, hrun, hfault]
  · have hu : u.faultRecorded := runBatch_induction (fun _ _ => instrStep_faultRecorded) hs hbatch
    split <;> exact hu

/-- A live machine has no record, and it still has none once the tick has set its run state to another live one. -/
theorem latch_setRun_faultRecorded {r : RunState} (hs : s.faultRecorded) (hrun : s.run ≠ .faulted) (hr : r ≠ .faulted) :
    ((latch s).setRun r).faultRecorded :=
  iff_of_false hr (mt hs.mpr hrun)

theorem tick_faultRecorded (hs : s.faultRecorded) (h : tick n s = .next t) : t.faultRecorded := by
  rcases tick_cases h with ⟨-, rfl⟩ | ⟨hrun, -, rfl⟩ | ⟨⟨-, hmode⟩, rfl⟩ | ⟨⟨-, hmode⟩, hwork⟩
  · exact hs
  · exact latch_setRun_faultRecorded hs (by rcases hrun with hrun | hrun <;> rw [hrun] <;> decide) (by decide)
  · exact latch_setRun_faultRecorded hs (by rcases hmode with ⟨hrun, -⟩ | ⟨hrun, -⟩ <;> rw [hrun] <;> decide) (by decide)
  · have hworking := latch_setRun_faultRecorded (r := .running) hs
      (by rcases hmode with ⟨hrun, -⟩ | ⟨hrun, -⟩ <;> rw [hrun] <;> decide) (by decide)
    exact runningTick_faultRecorded hworking hwork

end

/-! ## Which instructions change a unit -/

section
variable {i : Instr} {s t : State}

theorem mayWrite_cell {px : Col} {py : Row} (h : mayWrite i s (.cell px py)) :
    i = .cls ∨ ∃ x y n, i = .drw x y n := by
  cases i <;> simp [mayWrite] at h ⊢

theorem mayWrite_sp (h : mayWrite i s .sp) : i = .ret ∨ ∃ nnn, i = .call nnn := by
  cases i <;> simp [mayWrite] at h ⊢

theorem mayWrite_index (h : mayWrite i s .index) : (∃ nnn, i = .ldI nnn) ∨ ∃ x, i = .addI x ∨ i = .ldF x := by
  cases i <;> simp [mayWrite] at h ⊢

theorem exists_cell_ne {g g' : Framebuffer} (h : g' ≠ g) : ∃ x y, cell g' x y ≠ cell g x y := by
  by_contra hall
  simp only [not_exists, not_not] at hall
  exact h (Vector.ext fun y hy => Vector.ext fun x hx => hall ⟨x, hx⟩ ⟨y, hy⟩)

theorem exists_slot_ne {v v' : Vector Word 12} (h : v' ≠ v) : ∃ j : Fin 12, v'[j] ≠ v[j] := by
  by_contra hall
  simp only [not_exists, not_not] at hall
  exact h (Vector.ext fun j hj => hall ⟨j, hj⟩)

theorem exec_changes_fb (h : exec i s = .next t) (hfb : t.fb ≠ s.fb) : i = .cls ∨ ∃ x y n, i = .drw x y n := by
  obtain ⟨px, py, hcell⟩ := exists_cell_ne hfb
  exact mayWrite_cell (mayWrite_of_changed (p := .cell px py) h hcell nofun nofun)

theorem exec_changes_stack (h : exec i s = .next t) (hstack : t.stack ≠ s.stack ∨ t.sp ≠ s.sp) :
    i = .ret ∨ ∃ nnn, i = .call nnn := by
  rcases hstack with hstack | hsp
  · obtain ⟨j, hslot⟩ := exists_slot_ne hstack
    exact .inr (mayWrite_slot (mayWrite_of_changed (p := .slot j) h hslot nofun nofun))
  · exact mayWrite_sp (mayWrite_of_changed (p := .sp) h hsp nofun nofun)

theorem exec_changes_index (h : exec i s = .next t) (hi : t.i ≠ s.i) :
    (∃ nnn, i = .ldI nnn) ∨ ∃ x, i = .addI x ∨ i = .ldF x :=
  mayWrite_index (mayWrite_of_changed (p := .index) h hi nofun nofun)

end

/-! ## The obligations -/

/-- Settles O28: a step leaves memory or stores one block, whose checks keep it out of the font region and inside memory
(20_memory R64). -/
theorem memoryStaysCanonical : Obligations.MemoryStaysCanonical := by
  intro s t hwf h
  rcases step_mem_cases h with hsame | ⟨-, a, bs, hwrite⟩
  · rwa [hsame]
  · exact writeBlock_wf hwrite hwf

/-- Settles O29: an instruction is executed only from a PC of at most 0xFFE, and a return address is that PC + 2
(10_state R26). -/
theorem pcAndReturnAddressesStayBounded : Obligations.PcAndReturnAddressesStayBounded := by
  intro s t hs h
  rcases step_units_cases h with hsame | ⟨i, u, hpc, -, hexec, hsame⟩
  · exact hsame.pcBounded hs
  · exact hsame.pcBounded (exec_pcBounded (s := s.working) hpc hs hexec)

/-- Settles O30: only taking a fault makes the machine Faulted or writes a record, and it does both (40_cycle R127). -/
theorem faultRecordExactlyWhenFaulted : Obligations.FaultRecordExactlyWhenFaulted :=
  fun _ _ => tick_faultRecorded

/-- Settles O32: the loader's copy starts above the font, and a step's one block store checks the font region byte by byte
(70_reset R402; 20_memory R64). -/
theorem fontIsNeverMutated : Obligations.FontIsNeverMutated := by
  refine ⟨fun initRam rom t hload a ha => ?_, fun s t h a ha => ?_, fun m a v ha => ?_⟩
  · have hfits := load_eq_next_iff.mp ⟨t, hload⟩
    cases (load_of_fits hfits).symm.trans hload
    exact bootMemory_read_font initRam rom ha
  · rcases step_mem_cases h with hsame | ⟨-, b, bs, hwrite⟩
    · rw [hsame]
    · exact writeBlock_read_font hwrite ha
  · rw [memWrite, if_neg (by omega), if_pos ha]

/-- Settles O17: a changed unit has a changed place, which the instruction at PC may write (10_state R23; 20_memory R71). -/
theorem onlyNamedInstructionsChangeEachUnit : Obligations.OnlyNamedInstructionsChangeEachUnit := by
  intro s t h
  refine ⟨?_, ?_, ?_, fun hmem => ((step_mem_cases h).resolve_left hmem).1⟩
  all_goals
    intro hchange
    rcases step_units_cases h with hsame | ⟨i, u, -, hd, hexec, hsame⟩
  · exact absurd hsame.fb hchange
  · rw [hsame.fb] at hchange
    exact ⟨i, hd, exec_changes_fb hexec hchange⟩
  · exact hchange.elim (absurd hsame.stack) (absurd hsame.sp)
  · rw [hsame.stack, hsame.sp] at hchange
    exact ⟨i, hd, exec_changes_stack hexec hchange⟩
  · exact absurd hsame.i hchange
  · rw [hsame.i] at hchange
    exact ⟨i, hd, exec_changes_index hexec hchange⟩

end Sys2Proof.Machine
end
